-- ==== Sys2Proof/Word.lean ====
section
/-! DEFINITION. The two words of the block: the byte of every stream and frame, and the 16-bit unsigned field of a
measurement (00_scope.md R7, 40_checksum.md R76). -/

namespace Sys2Proof

/-- A byte: unsigned, 0 to 255, bit 7 the most significant (R7). -/
abbrev Byte := BitVec 8

/-- A 16-bit unsigned measurement field (R12, R13, R76). -/
abbrev Word16 := BitVec 16

end Sys2Proof
end

