-- ==== Sys2Proof/Config.lean ====
section
/-! DEFINITION. What the spec fixes for every instance (the constants of 00_scope.md R5 and R6), the answers a byte source
can give (20_memory.md R32, R33), and the free values: the answers that no list in the state names. -/

namespace Sys2Proof

/-- An answer of the byte source to `RxRead` (R32): bytes, none of them when no data was available, or a failure. -/
inductive RxAnswer where
  | data (bs : List Byte)
  | fail
  deriving DecidableEq, Repr, Inhabited

/-- An answer of the byte source to `TxWrite` (R33). -/
inductive TxAnswer where
  | ok
  | fail
  deriving DecidableEq, Repr, Inhabited

namespace Config

/-- HDR: first byte of every frame, both directions (R5). -/
def hdr : Byte := 0xAA
/-- CMDID_OUT: second byte of every command frame (R5). -/
def cmdIdOut : Byte := 0xB4
/-- CMDID_IN: second byte of a measurement frame (R5). -/
def cmdIdIn : Byte := 0xC0
/-- TAIL: last byte of every frame (R5). -/
def tail : Byte := 0xAB
/-- PADFF: the two bytes before the checksum of a command frame (R5). -/
def padFf : Byte := 0xFF
/-- NZERO: number of 0x00 bytes in a command frame (R5, C1). -/
def nZero : Nat := 10
/-- CMD_LEN: bytes in a command frame (R5, C1: the listings hold 19). -/
def cmdLen : Nat := 19
/-- MEAS_LEN: bytes in a measurement frame with its two markers (R5, C4). -/
def measLen : Nat := 10
/-- PAYLOAD_LEN: bytes read after the two markers (R5). -/
def payloadLen : Nat := 8
/-- The default of MAXSCAN (R5, R22). -/
def defaultMaxScan : Nat := 512

/-! The command vocabulary (R6). GET and DUTYCYCLE are named by the spec and used by no operation (R58, R85). -/

/-- SET, a value of the mode byte (R6). -/
def vocSet : Byte := 0x01
/-- GET, a value of the mode byte (R6); no operation uses it. -/
def vocGet : Byte := 0x00
/-- QUERY, a value of the command byte (R6). -/
def vocQuery : Byte := 0x04
/-- REPORTING_MODE, a value of the command byte (R6). -/
def vocReportingMode : Byte := 0x02
/-- DUTYCYCLE, a value of the command byte (R6); no operation uses it. -/
def vocDutyCycle : Byte := 0x08
/-- SLEEPWAKE, a value of the command byte (R6). -/
def vocSleepWake : Byte := 0x06

/-- FREE VALUE (log 7): the answer drawn for the `RxRead` call of that number once the state lists no answer. The RX
stream is an unconstrained input (R45, U2, U15); nothing can be proved of a draw. -/
opaque freeRx : Nat → RxAnswer

/-- FREE VALUE (log 8): the answer drawn for the `TxWrite` call of that number once the state lists no answer (R33). -/
opaque freeTx : Nat → TxAnswer

end Config
end Sys2Proof
end

