-- ==== Sys2Proof/Syntax.lean ====
section
/-! DEFINITION. The operations of the block as terms: one constructor per row of spec/opcode_table.json (30_encoding.md R55,
R57, R60), and the payload their operands are made of. -/

namespace Sys2Proof

/-- The 8 payload bytes of a measurement frame, in stream order (format MFP; R52). -/
structure Payload where
  pm25Lo : Byte
  pm25Hi : Byte
  pm10Lo : Byte
  pm10Hi : Byte
  id1 : Byte
  id2 : Byte
  checksum : Byte
  tail : Byte
  deriving DecidableEq, Repr

/-- The operations of the operation map (R55) and the reserved select code (R60). -/
inductive Instr where
  /-- BUILD (R80): format CF. -/
  | build (cmd mode param : Byte)
  /-- QUERY (R81): format CF. -/
  | query
  /-- SETMODE (R82): format CF. -/
  | setMode
  /-- WAKEF (R83): format CF. -/
  | wakeF
  /-- SLEEPF (R84): format CF. -/
  | sleepF
  /-- SCAN (R90): format MF; its budget is the instance's MAXSCAN. -/
  | scan
  /-- DECODE (R96): format MFP. -/
  | decode (p : Payload)
  /-- CHECK (R74): format MFP. -/
  | check (p : Payload)
  /-- READ (R110): OPSEL 000. -/
  | read
  /-- WAKE (R112): OPSEL 001. -/
  | wake
  /-- SLEEP (R113): OPSEL 010. -/
  | sleep
  /-- GETPM25 (R114): OPSEL 011. -/
  | getPm25
  /-- GETPM10 (R115): OPSEL 100. -/
  | getPm10
  /-- GETSTATUS (R116): OPSEL 101. -/
  | getStatus
  /-- GETRAW (R117): OPSEL 110. -/
  | getRaw
  /-- RESERVED_OPSEL_111 (R60): OPSEL 111. -/
  | reservedOpsel111
  /-- RESET (R150): the reset input, with the scan budget of the fresh instance. -/
  | reset (maxScan : Nat)
  /-- SUM8 (R70): a byte sequence of any length. -/
  | sum8 (bs : List Byte)
  /-- CSUMC (R71). -/
  | csumc (cmd mode param : Byte)
  /-- CSUMM (R72): the six data bytes of a payload. -/
  | csumm (d0 d1 d2 d3 d4 d5 : Byte)
  /-- SCANSTEP (R91 to R95, R103): one turn of the scan loop. -/
  | scanStep
  deriving DecidableEq, Repr

end Sys2Proof
end

