-- ==== Sys2Proof/Machine/Operands.lean ====
section
/-! DEFINITION. How the fields of frames are put together and taken apart (30_encoding.md R50 to R56), and the modular sums
(40_checksum.md R70 to R72). Nothing here reads or writes state. -/

namespace Sys2Proof

/-- SUM8 (R70): the sum of the bytes over unbounded integers, reduced once modulo 256. -/
def sum8 (bs : List Byte) : Byte :=
  BitVec.ofNat 8 (bs.map BitVec.toNat).sum

/-- CSUMC (R71, C5): the formula's five terms. -/
def csumc (cmd mode param : Byte) : Byte :=
  BitVec.ofNat 8 (cmd.toNat + mode.toNat + param.toNat + 255 + 255)

/-- CSUMM (R72): SUM8 of the six data bytes. -/
def csumm (d0 d1 d2 d3 d4 d5 : Byte) : Byte :=
  sum8 [d0, d1, d2, d3, d4, d5]

/-- The command frame of BUILD, offsets 0 to 18 (R50, R80). -/
def commandFrame (cmd mode param : Byte) : List Byte :=
  [Config.hdr, Config.cmdIdOut, cmd, mode, param] ++ List.replicate Config.nZero 0x00
    ++ [Config.padFf, Config.padFf, csumc cmd mode param, Config.tail]

/-- The QUERY frame (R56, R81). -/
def queryFrame : List Byte := commandFrame Config.vocQuery 0x00 0x00
/-- The SETMODE frame (R56, R82). -/
def setModeFrame : List Byte := commandFrame Config.vocReportingMode Config.vocSet 0x01
/-- The WAKEF frame (R56, R83). -/
def wakeFrame : List Byte := commandFrame Config.vocSleepWake Config.vocSet 0x01
/-- The SLEEPF frame (R56, R84). -/
def sleepFrame : List Byte := commandFrame Config.vocSleepWake Config.vocSet 0x00

/-- The named operation that BUILD at these operands is (R51, R56), if it is one. -/
def namedFrame (cmd mode param : Byte) : Option Instr :=
  if cmd = Config.vocQuery ∧ mode = 0x00 ∧ param = 0x00 then some .query
  else if cmd = Config.vocReportingMode ∧ mode = Config.vocSet ∧ param = 0x01 then some .setMode
  else if cmd = Config.vocSleepWake ∧ mode = Config.vocSet ∧ param = 0x01 then some .wakeF
  else if cmd = Config.vocSleepWake ∧ mode = Config.vocSet ∧ param = 0x00 then some .sleepF
  else none

/-- A payload as the 8 bytes of the stream, payload offset 0 first (R36, R52). -/
def payloadBytes (p : Payload) : List Byte :=
  [p.pm25Lo, p.pm25Hi, p.pm10Lo, p.pm10Hi, p.id1, p.id2, p.checksum, p.tail]

/-- Exactly 8 bytes are a payload (R52, R94). -/
def payloadOfBytes : List Byte → Option Payload
  | [a, b, d, e, i, j, k, t] => some ⟨a, b, d, e, i, j, k, t⟩
  | _ => none

/-- A measurement frame on the wire: the two markers, then the payload (R52). -/
def measurementFrame (p : Payload) : List Byte :=
  [Config.hdr, Config.cmdIdIn] ++ payloadBytes p

/-- A 16-bit field from its two bytes, low byte first (R37, R54): low + 256 × high. -/
def le16 (lo hi : Byte) : Word16 :=
  BitVec.ofNat 16 (lo.toNat + 256 * hi.toNat)

/-- The raw PM2.5 field of a payload (R54). -/
def pm25Raw (p : Payload) : Word16 := le16 p.pm25Lo p.pm25Hi

/-- The raw PM10 field of a payload (R54). -/
def pm10Raw (p : Payload) : Word16 := le16 p.pm10Lo p.pm10Hi

end Sys2Proof
end

