-- ==== Sys2Proof/WellFormed.lean ====
section
/-! DEFINITION. Which terms of `Instr` are written in their own name. Every operand value of every operation is legal (R58,
R59): the one check is that BUILD at the operands of a named frame is written by that name, because R56 makes QUERY,
SETMODE, WAKEF and SLEEPF other names of those BUILDs and one frame cannot be read as two terms (log 4). `exec` asks for no
well-formedness: BUILD has its meaning at all operands. -/

namespace Sys2Proof

/-- The term is the one its own request decodes to. -/
def wellFormed : Instr → Bool
  | .build c m p => namedFrame c m p == none
  | .query => true
  | .setMode => true
  | .wakeF => true
  | .sleepF => true
  | .scan => true
  | .decode _ => true
  | .check _ => true
  | .read => true
  | .wake => true
  | .sleep => true
  | .getPm25 => true
  | .getPm10 => true
  | .getStatus => true
  | .getRaw => true
  | .reservedOpsel111 => true
  | .reset _ => true
  | .sum8 _ => true
  | .csumc _ _ _ => true
  | .csumm _ _ _ _ _ _ => true
  | .scanStep => true

/-- `i` is well-formed. -/
abbrev WellFormed (i : Instr) : Prop := wellFormed i = true

end Sys2Proof
end

