-- ==== Sys2Proof/Decode.lean ====
section
/-! DEFINITION. From the bits of a request to an operation, and back (30_encoding.md). The HOST operations have a 3-bit
select code (R57); the operations of the formats CF, MF and MFP are read from their frames (R50, R52), each handed to the
unit it belongs to; the operations without an encoding (R55, format `none`) are handed over as calls (log 3). -/

namespace Sys2Proof

/-- A call of an operation that has no encoding (R55): the reset input and the interfaces between the units. -/
inductive UnitCall where
  | reset (maxScan : Nat)
  | sum8 (bs : List Byte)
  | csumc (cmd mode param : Byte)
  | csumm (d0 d1 d2 d3 d4 d5 : Byte)
  | scanStep
  deriving DecidableEq, Repr

/-- What the block is asked to do next, as bits where the spec gives bits. -/
inductive Request where
  /-- Format HOST: the select code OPSEL (R57). -/
  | select (opsel : BitVec 3)
  /-- Format CF: a command frame, at the encoder (R50). -/
  | commandWord (bs : List Byte)
  /-- Format MF: a measurement frame, at the scanner (R52). -/
  | measurementWord (bs : List Byte)
  /-- Format MFP: a payload, at the decoder (R96). -/
  | decoderWord (bs : List Byte)
  /-- Format MFP: a payload, at the validator (R74). -/
  | validatorWord (bs : List Byte)
  /-- Format none: an operation without an encoding (R55). -/
  | unit (c : UnitCall)
  deriving DecidableEq, Repr

/-- Why bits are no operation. -/
inductive DecodeError where
  /-- Not 19 bytes (R50, C1). -/
  | commandLength
  /-- Offset 0 is not 0xAA (R50, R52). -/
  | header
  /-- Offset 1 of a command frame is not 0xB4 (R50). -/
  | commandId
  /-- Offsets 5 to 14 of a command frame are not ten zero bytes (R50). -/
  | zeroPadding
  /-- Offsets 15 and 16 of a command frame are not 0xFF (R50). -/
  | ffPadding
  /-- Offset 17 of a command frame is not CSUMC of its operands: no frame this block can produce (R50). -/
  | checksum
  /-- Offset 18 of a command frame is not 0xAB (R50). -/
  | tail
  /-- Not 10 bytes (R52, C4). -/
  | measurementLength
  /-- Offset 1 of a measurement frame is not 0xC0 (R52). -/
  | commandMarker
  /-- Not 8 bytes (R52). -/
  | payloadLength
  deriving DecidableEq, Repr

/-- The operation a select code names (R57). -/
def decodeSelect (opsel : BitVec 3) : Instr :=
  match opsel.toNat with
  | 0 => .read
  | 1 => .wake
  | 2 => .sleep
  | 3 => .getPm25
  | 4 => .getPm10
  | 5 => .getStatus
  | 6 => .getRaw
  | _ => .reservedOpsel111

/-- A command frame read by the table of R50: every fixed byte is tested, the checksum too, and a frame that has a name of
its own (R51) is read by that name. -/
def decodeCommandWord (bs : List Byte) : Except DecodeError Instr :=
  let cmd := bs.getD 2 0
  let mode := bs.getD 3 0
  let param := bs.getD 4 0
  if bs.length ≠ Config.cmdLen then .error .commandLength
  else if bs.getD 0 0 ≠ Config.hdr then .error .header
  else if bs.getD 1 0 ≠ Config.cmdIdOut then .error .commandId
  else if (bs.drop 5).take Config.nZero ≠ List.replicate Config.nZero 0x00 then .error .zeroPadding
  else if (bs.drop 15).take 2 ≠ [Config.padFf, Config.padFf] then .error .ffPadding
  else if bs.getD 17 0 ≠ csumc cmd mode param then .error .checksum
  else if bs.getD 18 0 ≠ Config.tail then .error .tail
  else .ok ((namedFrame cmd mode param).getD (.build cmd mode param))

/-- A frame with the recognition pattern of SCAN (R52): the two markers, then any 8 bytes. -/
def decodeMeasurementWord (bs : List Byte) : Except DecodeError Instr :=
  if bs.length ≠ Config.measLen then .error .measurementLength
  else if bs.getD 0 0 ≠ Config.hdr then .error .header
  else if bs.getD 1 0 ≠ Config.cmdIdIn then .error .commandMarker
  else .ok .scan

/-- An operation on a payload: any 8 bytes are one (R59, R96). -/
def decodePayloadWord (op : Payload → Instr) (bs : List Byte) : Except DecodeError Instr :=
  match payloadOfBytes bs with
  | some p => .ok (op p)
  | none => .error .payloadLength

/-- The operation a call names. -/
def decodeUnit : UnitCall → Instr
  | .reset n => .reset n
  | .sum8 bs => .sum8 bs
  | .csumc c m p => .csumc c m p
  | .csumm d0 d1 d2 d3 d4 d5 => .csumm d0 d1 d2 d3 d4 d5
  | .scanStep => .scanStep

/-- The operation a request asks for; total, rejecting by name. -/
def decode : Request → Except DecodeError Instr
  | .select opsel => .ok (decodeSelect opsel)
  | .commandWord bs => decodeCommandWord bs
  | .measurementWord bs => decodeMeasurementWord bs
  | .decoderWord bs => decodePayloadWord .decode bs
  | .validatorWord bs => decodePayloadWord .check bs
  | .unit c => .ok (decodeUnit c)

/-- The request of an operation, from the tables of R50, R51, R52 and R57. SCAN's is its recognition pattern with the bits
the mask leaves open at zero. -/
def encode : Instr → Request
  | .build c m p => .commandWord (commandFrame c m p)
  | .query => .commandWord queryFrame
  | .setMode => .commandWord setModeFrame
  | .wakeF => .commandWord wakeFrame
  | .sleepF => .commandWord sleepFrame
  | .scan => .measurementWord ([Config.hdr, Config.cmdIdIn] ++ List.replicate Config.payloadLen 0x00)
  | .decode p => .decoderWord (payloadBytes p)
  | .check p => .validatorWord (payloadBytes p)
  | .read => .select 0b000
  | .wake => .select 0b001
  | .sleep => .select 0b010
  | .getPm25 => .select 0b011
  | .getPm10 => .select 0b100
  | .getStatus => .select 0b101
  | .getRaw => .select 0b110
  | .reservedOpsel111 => .select 0b111
  | .reset n => .unit (.reset n)
  | .sum8 bs => .unit (.sum8 bs)
  | .csumc c m p => .unit (.csumc c m p)
  | .csumm d0 d1 d2 d3 d4 d5 => .unit (.csumm d0 d1 d2 d3 d4 d5)
  | .scanStep => .unit .scanStep

/-- The `n` bytes of a table word, the first byte of the stream in bits 7 to 0 (log 2). -/
def tableBytes : Nat → Nat → List Byte
  | 0, _ => []
  | n + 1, w => BitVec.ofNat 8 w :: tableBytes n (w / 256)

/-- The request that a table word of that width is: 152, 80 and 64 bits are the formats CF, MF and MFP (the decoder's), a
width of 0 is no word, and any other is a HOST row, whose select code is bits 2 to 0 (log 2). -/
def tableRequest (nbits w : Nat) : Option Request :=
  if nbits = 0 then none
  else if nbits = 152 then some (.commandWord (tableBytes 19 w))
  else if nbits = 80 then some (.measurementWord (tableBytes 10 w))
  else if nbits = 64 then some (.decoderWord (tableBytes 8 w))
  else some (.select (BitVec.ofNat 3 w))

/-- The instruction the decoder reads from a table word. -/
def decodeTableWord (nbits w : Nat) : Option Instr :=
  match tableRequest nbits w with
  | none => none
  | some r =>
    match decode r with
    | .ok i => some i
    | .error _ => none

end Sys2Proof
end

