-- ==== Sys2Proof/Machine/State.lean ====
section
/-! DEFINITION. The state of the block (10_state.md R10), of its two streams (20_memory.md R30, R31) and of its host (log 1,
log 5), what its operations return, and the reasons it stops. -/

namespace Sys2Proof.Machine

/-- RD_STATUS (R16). -/
inductive PacketStatus where
  /-- No frame has been located since reset. -/
  | empty
  | ok
  | nok
  deriving DecidableEq, Repr

/-- The verdict of CHECK (R74). -/
inductive Verdict where
  | ok
  | nok
  deriving DecidableEq, Repr

/-- DRV_STATE (R19). -/
inductive DrvState where
  | idle
  | busy
  deriving DecidableEq, Repr

/-- SC_PHASE (R20): what the scanner expects from its next read. -/
inductive ScPhase where
  | hunt
  | cmd
  | payload
  deriving DecidableEq, Repr

/-- The operation result (R17). -/
inductive OpResult where
  | ok
  | nok
  | fault
  deriving DecidableEq, Repr

/-- A decoded reading (R96). -/
structure Reading where
  pm25Raw : Word16
  pm10Raw : Word16
  status : Verdict
  raw : Payload
  deriving DecidableEq, Repr

/-- How a SCAN ends (R98), and one case more: a read that never answers (D24, log 9). -/
inductive ScanResult where
  | found (rd : Reading)
  | decodeFailure
  | notFound
  | transportFault
  /-- A read never answered: the SCAN never returns. -/
  | blocked
  deriving DecidableEq, Repr

/-- What one SCANSTEP gives (R55): the next phase, or a SCAN result. -/
inductive StepResult where
  | goesOn (phase : ScPhase)
  | ends (r : ScanResult)
  deriving DecidableEq, Repr

/-- A concentration in µg/m³, an exact decimal with one fractional digit (R114, R120). -/
structure Concentration where
  whole : Nat
  tenth : Fin 10
  deriving DecidableEq, Repr

/-- What an operation hands back to its caller (R55, column "result"). -/
inductive Returned where
  /-- The operation has not returned: a call of the byte source never answered (log 9). -/
  | pending
  | code (c : OpResult)
  | concentration (v : Option Concentration)
  | status (v : PacketStatus)
  | raw (v : Option Payload)
  | byte (b : Byte)
  | frame (bs : List Byte)
  | verdict (v : Verdict)
  | reading (rd : Reading)
  | phase (ph : ScPhase)
  | scan (r : ScanResult)
  deriving DecidableEq, Repr

/-- What becomes of one call of the byte source: it answers, or it never does (D24, log 9). -/
inductive Reply (α : Type) where
  | answer (a : α)
  | never
  deriving DecidableEq, Repr

/-- The RX stream (R30): the future answers of the byte source. -/
structure RxStream where
  /-- The listed answers, next first. A `data` entry is what the source then has at hand; a call takes at most as many bytes
  of it as it asks for (R32, log 6). -/
  future : List (Reply RxAnswer)
  /-- `RxRead` calls made so far: the number a free answer is drawn with (log 7). -/
  calls : Nat
  deriving DecidableEq, Repr

/-- The TX stream (R31, R33). -/
structure TxStream where
  /-- The listed answers to `TxWrite`, next first. -/
  future : List (Reply TxAnswer)
  /-- `TxWrite` calls made so far: the number a free answer is drawn with (log 8). -/
  calls : Nat
  /-- The TX log: the frames written, oldest first (R31). -/
  log : List (List Byte)
  deriving DecidableEq, Repr

/-- The block, its parameters, its two streams and its host. -/
structure State where
  /-- RD_PM25 (R12): `none` until the first located frame. -/
  rdPm25 : Option Word16
  /-- RD_PM10 (R13): `none` until the first located frame. -/
  rdPm10 : Option Word16
  /-- RD_STATUS (R16). -/
  rdStatus : PacketStatus
  /-- RD_RAW (R14): `none` until the first located frame. -/
  rdRaw : Option Payload
  /-- DRV_STATE (R19). -/
  drvState : DrvState
  /-- BOOT_FAULT (R23). -/
  bootFault : Bool
  /-- SC_PHASE (R20). -/
  scPhase : ScPhase
  /-- SC_CNT (R21). -/
  scCnt : Nat
  /-- MAXSCAN (R22). -/
  maxScan : Nat
  /-- The parameter CMD_READ_COUNTS (R5, D3, log 15). -/
  cmdReadCounts : Bool
  /-- The RX stream (R30). -/
  rx : RxStream
  /-- The TX stream (R31). -/
  tx : TxStream
  /-- The operations the host still has to call (R166, log 1). -/
  calls : List Request
  /-- What the last operation returned to its caller (R17, log 5). -/
  returned : Returned
  deriving DecidableEq, Repr

/-- Reasons to stop with a fault: there are none. "All failures are local and non-fatal" (60_exceptions.md): every failure
of the protocol is a result (R130), and a call that never answers is a state (log 9, log 18). -/
inductive Fault where
  deriving DecidableEq, Repr

/-- Reasons to refuse. Every one is safe: no claim about what follows can be proved. -/
inductive Refusal where
  /-- Raised by `exec` for an instruction without a meaning; no arm raises it now. Safe. -/
  | notModelled (mnemonic : String)
  /-- Raised by every host operation started while DRV_STATE is BUSY (R19, R27, R130, U3). Safe. -/
  | startedWhileBusy
  /-- Raised by every host operation started after a failed boot write (R152, R130, U16). Safe. -/
  | bootWriteFailed
  /-- Raised by OPSEL 111 (R60, R130, U14). Safe. -/
  | reservedSelectCode
  /-- Raised by `step` for a request that is no operation's. Safe. -/
  | undecodable (why : DecodeError)
  deriving DecidableEq, Repr

/-- The state after RESET with the default budget, its boot write having answered ok (R28, R150, R151; log 10, log 11). -/
def State.reset : State where
  rdPm25 := none
  rdPm10 := none
  rdStatus := .empty
  rdRaw := none
  drvState := .idle
  bootFault := false
  scPhase := .hunt
  scCnt := 0
  maxScan := Config.defaultMaxScan
  cmdReadCounts := true
  rx := { future := [], calls := 0 }
  tx := { future := [], calls := 1, log := [setModeFrame] }
  calls := []
  returned := .code .ok

end Sys2Proof.Machine
end

