-- ==== Sys2Proof/Machine/Flags.lean ====
section
/-! DEFINITION. The block's one flag, the packet status (10_state.md R16, 40_checksum.md R74), the decode step that computes
it (42_scanner.md R96), the decimal an accessor shows (43_sequencer.md R114), and the codes of R57. -/

namespace Sys2Proof.Machine

/-- CHECK (R74): OK when the checksum byte is CSUMM of the data bytes and the tail is 0xAB. -/
def verdictOf (p : Payload) : Verdict :=
  if p.checksum = csumm p.pm25Lo p.pm25Hi p.pm10Lo p.pm10Hi p.id1 p.id2 ∧ p.tail = Config.tail then .ok else .nok

/-- The packet status that a verdict becomes when a reading is stored (R16, R110). -/
def statusOf : Verdict → PacketStatus
  | .ok => .ok
  | .nok => .nok

/-- DECODE (R96). -/
def readingOf (p : Payload) : Reading where
  pm25Raw := pm25Raw p
  pm10Raw := pm10Raw p
  status := verdictOf p
  raw := p

/-- The concentration of a raw value: raw / 10, exactly (R114, R115, D11). -/
def concentrationOf (raw : Word16) : Concentration where
  whole := raw.toNat / 10
  tenth := Fin.ofNat 10 raw.toNat

/-- The result code of R57, for a host that wants bits; no rule depends on it. -/
def resultCode : OpResult → BitVec 2
  | .ok => 0b00
  | .nok => 0b01
  | .fault => 0b10

/-- The packet status code of R57, for a host that wants bits; no rule depends on it. -/
def statusCode : PacketStatus → BitVec 2
  | .empty => 0b00
  | .ok => 0b01
  | .nok => 0b10

end Sys2Proof.Machine
end

