-- ==== Sys2Proof/Machine/Ops.lean ====
section
/-! DEFINITION. The shared operations: the two stream primitives (20_memory.md R32, R33), the scan loop (42_scanner.md R90 to
R95), the start and the end of a host operation (43_sequencer.md, "Common to every host operation"; 60_exceptions.md R138),
and the fetch of the host's next call (log 1). The block has no exception entry and no return from one (R138, R139):
`finish` is what an operation does on every outcome. -/

namespace Sys2Proof.Machine

/-- One outcome of the block's step. -/
abbrev Out := Host.Outcome State Fault Refusal

/-! ## The streams -/

/-- `RxRead n` met by the answer at hand: at most `n` bytes are handed over, what is left waits for the next call (R26, R32,
R34). -/
def rxServe (n : Nat) (a : RxAnswer) (later : List (Reply RxAnswer)) (calls : Nat) : Reply RxAnswer × RxStream :=
  match a with
  | .fail => (.answer .fail, { future := later, calls := calls + 1 })
  | .data bs =>
    (.answer (.data (bs.take n)),
      { future := if bs.length ≤ n then later else .answer (.data (bs.drop n)) :: later, calls := calls + 1 })

/-- `RxRead n` (R32): the next listed reply, or a free answer when none is listed (log 7). -/
def rxRead (n : Nat) (rx : RxStream) : Reply RxAnswer × RxStream :=
  match rx.future with
  | [] => rxServe n (Config.freeRx rx.calls) [] rx.calls
  | .answer a :: later => rxServe n a later rx.calls
  | .never :: later => (.never, { future := later, calls := rx.calls + 1 })

/-- The TX log after an answer to the write of `bs` (R33, D23): ok appends the whole of it, fail nothing. -/
def txLogAfter (bs : List Byte) (a : TxAnswer) (log : List (List Byte)) : List (List Byte) :=
  match a with
  | .ok => log ++ [bs]
  | .fail => log

/-- `TxWrite bs` (R33): the next listed reply, or a free answer when none is listed (log 8). -/
def txWrite (bs : List Byte) (tx : TxStream) : Reply TxAnswer × TxStream :=
  match tx.future with
  | [] =>
    (.answer (Config.freeTx tx.calls),
      { future := [], calls := tx.calls + 1, log := txLogAfter bs (Config.freeTx tx.calls) tx.log })
  | .answer a :: later => (.answer a, { future := later, calls := tx.calls + 1, log := txLogAfter bs a tx.log })
  | .never :: later => (.never, { future := later, calls := tx.calls + 1, log := tx.log })

/-! ## The scanner -/

/-- Whether the next one-byte read is charged to the budget (R90, R91, R102). -/
def charged (s : State) : Bool :=
  s.scPhase == .hunt || s.cmdReadCounts

/-- The phase after the answer to a one-byte read (R92, R93, R103). -/
def phaseAfter (ph : ScPhase) (bs : List Byte) : ScPhase :=
  match ph with
  | .hunt => if bs = [Config.hdr] then .cmd else .hunt
  | .cmd => if bs = [Config.cmdIdIn] then .payload else .hunt
  | .payload => .payload

/-- The budget count after a one-byte read is charged, or not (R91). -/
def countAfter (s : State) : Nat :=
  if charged s then s.scCnt + 1 else s.scCnt

/-- One turn in phase HUNT or CMD (R91 to R93). -/
def markerTurn (s : State) : StepResult × State :=
  if charged s = true ∧ s.scCnt = s.maxScan then (.ends .notFound, s)
  else
    match rxRead 1 s.rx with
    | (.never, rx) => (.ends .blocked, { s with scCnt := countAfter s, rx := rx })
    | (.answer .fail, rx) => (.ends .transportFault, { s with scCnt := countAfter s, rx := rx })
    | (.answer (.data bs), rx) =>
      (.goesOn (phaseAfter s.scPhase bs),
        { s with scPhase := phaseAfter s.scPhase bs, scCnt := countAfter s, rx := rx })

/-- What the payload read's bytes make of the SCAN (R94, R95). -/
def payloadResult (bs : List Byte) : ScanResult :=
  match payloadOfBytes bs with
  | some p => .found (readingOf p)
  | none => .decodeFailure

/-- The turn in phase PAYLOAD: one 8-byte read (R94, R95, R98). -/
def payloadTurn (s : State) : StepResult × State :=
  match rxRead 8 s.rx with
  | (.never, rx) => (.ends .blocked, { s with rx := rx })
  | (.answer .fail, rx) => (.ends .transportFault, { s with rx := rx })
  | (.answer (.data bs), rx) => (.ends (payloadResult bs), { s with rx := rx })

/-- One turn of the scan loop, in any phase (R103). -/
def scanTurn (s : State) : StepResult × State :=
  match s.scPhase with
  | .hunt => markerTurn s
  | .cmd => markerTurn s
  | .payload => payloadTurn s

/-- Turns of the scan loop until one ends it. The turns allowed are always enough (log 19): the last answer below is never
given. -/
def scanLoop : Nat → State → ScanResult × State
  | 0, s => (.notFound, s)
  | n + 1, s =>
    match scanTurn s with
    | (.ends r, s') => (r, s')
    | (.goesOn _, s') => scanLoop n s'

/-- The start of a SCAN (R90): HUNT, count 0. -/
def scanStart (s : State) : State :=
  { s with scPhase := .hunt, scCnt := 0 }

/-- SCAN(MAXSCAN) (R90). A charged turn is followed by at most one turn that is not, and one turn ends the loop. -/
def scan (s : State) : ScanResult × State :=
  scanLoop (2 * s.maxScan + 1) (scanStart s)

/-- What SCAN hands back; a SCAN that is blocked hands nothing back. -/
def scanReturned : ScanResult → Returned
  | .found rd => .scan (.found rd)
  | .decodeFailure => .scan .decodeFailure
  | .notFound => .scan .notFound
  | .transportFault => .scan .transportFault
  | .blocked => .pending

/-- What SCANSTEP hands back (R55). -/
def stepReturned : StepResult → Returned
  | .goesOn ph => .phase ph
  | .ends r => scanReturned r

/-! ## The sequencer -/

/-- A result handed back, nothing else changed. -/
def give (v : Returned) (s : State) : State :=
  { s with returned := v }

/-- The start of a host operation: refused while BUSY or after a failed boot write, otherwise DRV_STATE is BUSY and the body
runs (43_sequencer.md, "Common to every host operation"; R19, R152). -/
def hostOp (body : State → State) (s : State) : Out :=
  if s.drvState = .busy then .refused .startedWhileBusy
  else if s.bootFault = true then .refused .bootWriteFailed
  else .next (body { s with drvState := .busy, returned := .pending })

/-- The end of a host operation, whatever its outcome (R19, R138): DRV_STATE is IDLE, the host has its result. -/
def finish (v : Returned) (s : State) : State :=
  { s with drvState := .idle, returned := v }

/-- A frame written, then what follows when the write answered ok; a failed write ends the operation at once (R131), one that
never answers leaves it in progress (log 9). -/
def writeThen (frame : List Byte) (rest : State → State) (s : State) : State :=
  match txWrite frame s.tx with
  | (.never, tx) => { s with tx := tx }
  | (.answer .fail, tx) => finish (.code .fault) { s with tx := tx }
  | (.answer .ok, tx) => rest { s with tx := tx }

/-- The reading registers written together from one reading (R15, R110). -/
def storeReading (rd : Reading) (s : State) : State :=
  { s with rdPm25 := some rd.pm25Raw, rdPm10 := some rd.pm10Raw, rdStatus := statusOf rd.status, rdRaw := some rd.raw }

/-- What READ does with the outcome of its SCAN (R110, R111). -/
def readOutcome (r : ScanResult) (s : State) : State :=
  match r with
  | .found rd => finish (.code .ok) (storeReading rd s)
  | .notFound => finish (.code .nok) s
  | .decodeFailure => finish (.code .nok) s
  | .transportFault => finish (.code .fault) s
  | .blocked => s

/-- READ after its query frame has been written (R110). -/
def readScan (s : State) : State :=
  readOutcome (scan s).1 (scan s).2

/-- The fresh instance that RESET clears the state to (R150; log 11, log 14), before its boot write. -/
def freshInstance (maxScan : Nat) (s : State) : State :=
  { s with
    rdPm25 := none, rdPm10 := none, rdStatus := .empty, rdRaw := none
    drvState := .idle, bootFault := false, scPhase := .hunt, scCnt := 0, maxScan := maxScan
    tx := { s.tx with log := [] } }

/-- RESET's boot write and its result (R150 to R152). -/
def bootWrite (s : State) : State :=
  match txWrite setModeFrame s.tx with
  | (.never, tx) => { s with drvState := .busy, tx := tx, returned := .pending }
  | (.answer .fail, tx) => { s with bootFault := true, tx := tx, returned := .code .fault }
  | (.answer .ok, tx) => { s with tx := tx, returned := .code .ok }

/-! ## The host's next call -/

/-- What the host's list says next (R166, log 1). -/
inductive Fetched where
  /-- No operation is called: the block is quiescent. -/
  | quiet
  /-- The operation called, and the state with the call taken off the list. -/
  | operation (i : Instr) (s : State)
  /-- A request that is no operation's. -/
  | unreadable (why : DecodeError)

/-- Take the host's next call off its list and decode it. It does so also where the operation before never returned: the
model's choice, DESIGN CHOICE, unsafe (log 23; D24 leaves it open). -/
def fetch (s : State) : Fetched :=
  match s.calls with
  | [] => .quiet
  | r :: later =>
    match decode r with
    | .ok i => .operation i { s with calls := later }
    | .error e => .unreadable e

/-- The state with a request put where the next step fetches it (log 1, log 2). -/
def putCall (r : Option Request) (s : State) : State :=
  match r with
  | none => s
  | some r => { s with calls := r :: s.calls }

end Sys2Proof.Machine
end

