-- ==== Sys2Proof/Machine/Checksum.lean ====
section
/-! DEFINITION. The checksum unit (40_checksum.md): pure, it hands back a byte or a verdict. -/

namespace Sys2Proof.Machine

/-- SUM8 (R70). -/
def execSum8 (bs : List Byte) (s : State) : Out :=
  .next (give (.byte (sum8 bs)) s)

/-- CSUMC (R71). -/
def execCsumc (cmd mode param : Byte) (s : State) : Out :=
  .next (give (.byte (csumc cmd mode param)) s)

/-- CSUMM (R72). -/
def execCsumm (d0 d1 d2 d3 d4 d5 : Byte) (s : State) : Out :=
  .next (give (.byte (csumm d0 d1 d2 d3 d4 d5)) s)

/-- CHECK (R74): the verdict is handed back, RD_STATUS is not written. -/
def execCheck (p : Payload) (s : State) : Out :=
  .next (give (.verdict (verdictOf p)) s)

end Sys2Proof.Machine
end

