-- ==== Sys2Proof/Machine/Encoder.lean ====
section
/-! DEFINITION. The command frame encoder (41_encoder.md): pure, it hands back a frame and writes no stream. -/

namespace Sys2Proof.Machine

/-- BUILD (R80). -/
def execBuild (cmd mode param : Byte) (s : State) : Out :=
  .next (give (.frame (commandFrame cmd mode param)) s)

/-- QUERY (R81). -/
def execQuery (s : State) : Out :=
  .next (give (.frame queryFrame) s)

/-- SETMODE (R82). -/
def execSetMode (s : State) : Out :=
  .next (give (.frame setModeFrame) s)

/-- WAKEF (R83). -/
def execWakeF (s : State) : Out :=
  .next (give (.frame wakeFrame) s)

/-- SLEEPF (R84). -/
def execSleepF (s : State) : Out :=
  .next (give (.frame sleepFrame) s)

end Sys2Proof.Machine
end

