-- ==== Sys2Proof/Machine/Scanner.lean ====
section
/-! DEFINITION. The frame scanner and decoder (42_scanner.md). -/

namespace Sys2Proof.Machine

/-- SCAN (R90), with the instance's MAXSCAN as its budget (log 13). Where a read never answers nothing is handed back
and DRV_STATE stays as it is (log 9), so any listed operation may run next: DESIGN CHOICE, unsafe (log 23). -/
def execScan (s : State) : Out :=
  .next (give (scanReturned (scan s).1) (scan s).2)

/-- SCANSTEP (R91 to R95, R103): one turn from the scanner state it finds (log 12). Where its read never answers
nothing is handed back and DRV_STATE stays as it is (log 9), so any listed operation may run next: DESIGN CHOICE, unsafe
(log 23). -/
def execScanStep (s : State) : Out :=
  .next (give (stepReturned (scanTurn s).1) (scanTurn s).2)

/-- DECODE (R96): the reading is handed back, no register is written (C10). -/
def execDecode (p : Payload) (s : State) : Out :=
  .next (give (.reading (readingOf p)) s)

end Sys2Proof.Machine
end

