-- ==== Sys2Proof/Machine/Sequencer.lean ====
section
/-! DEFINITION. The host operations of the sequencer (43_sequencer.md), the reserved select code (30_encoding.md R60), and
RESET (70_reset_and_hazards.md R150). -/

namespace Sys2Proof.Machine

/-- READ (R110): the query frame, one SCAN, the reading on Found. -/
def execRead (s : State) : Out :=
  hostOp (writeThen queryFrame readScan) s

/-- WAKE (R112). -/
def execWake (s : State) : Out :=
  hostOp (writeThen wakeFrame (finish (.code .ok))) s

/-- SLEEP (R113). -/
def execSleep (s : State) : Out :=
  hostOp (writeThen sleepFrame (finish (.code .ok))) s

/-- GETPM25 (R114). -/
def execGetPm25 (s : State) : Out :=
  hostOp (finish (.concentration (s.rdPm25.map concentrationOf))) s

/-- GETPM10 (R115). -/
def execGetPm10 (s : State) : Out :=
  hostOp (finish (.concentration (s.rdPm10.map concentrationOf))) s

/-- GETSTATUS (R116). -/
def execGetStatus (s : State) : Out :=
  hostOp (finish (.status s.rdStatus)) s

/-- GETRAW (R117). -/
def execGetRaw (s : State) : Out :=
  hostOp (finish (.raw s.rdRaw)) s

/-- OPSEL 111 (R60): refused, no effect. -/
def execReservedOpsel111 (_ : State) : Out :=
  .refused .reservedSelectCode

/-- RESET (R150): a fresh instance with that budget, and its boot write. -/
def execReset (maxScan : Nat) (s : State) : Out :=
  .next (bootWrite (freshInstance maxScan s))

end Sys2Proof.Machine
end

