-- ==== Sys2Proof/Machine/Dispatch.lean ====
section
/-! DEFINITION. One arm per operation. -/

namespace Sys2Proof.Machine

def exec (i : Instr) (s : State) : Host.Outcome State Fault Refusal :=
  match i with
  | .build cmd mode param => Sys2Proof.Machine.execBuild cmd mode param s
  | .query => Sys2Proof.Machine.execQuery s
  | .setMode => Sys2Proof.Machine.execSetMode s
  | .wakeF => Sys2Proof.Machine.execWakeF s
  | .sleepF => Sys2Proof.Machine.execSleepF s
  | .scan => Sys2Proof.Machine.execScan s
  | .decode p => Sys2Proof.Machine.execDecode p s
  | .check p => Sys2Proof.Machine.execCheck p s
  | .read => Sys2Proof.Machine.execRead s
  | .wake => Sys2Proof.Machine.execWake s
  | .sleep => Sys2Proof.Machine.execSleep s
  | .getPm25 => Sys2Proof.Machine.execGetPm25 s
  | .getPm10 => Sys2Proof.Machine.execGetPm10 s
  | .getStatus => Sys2Proof.Machine.execGetStatus s
  | .getRaw => Sys2Proof.Machine.execGetRaw s
  | .reservedOpsel111 => Sys2Proof.Machine.execReservedOpsel111 s
  | .reset maxScan => Sys2Proof.Machine.execReset maxScan s
  | .sum8 bs => Sys2Proof.Machine.execSum8 bs s
  | .csumc cmd mode param => Sys2Proof.Machine.execCsumc cmd mode param s
  | .csumm d0 d1 d2 d3 d4 d5 => Sys2Proof.Machine.execCsumm d0 d1 d2 d3 d4 d5 s
  | .scanStep => Sys2Proof.Machine.execScanStep s

end Sys2Proof.Machine
end

