-- ==== Sys2Proof/Machine/Step.lean ====
section
/-! DEFINITION. One step of the machine: the host's next call is taken and run to its end (92_eei_decisions.md D1). -/

namespace Sys2Proof.Machine

/-- One step. With no call listed the block is quiescent (R166) and the state stays as it is. After an operation that never
returned the next listed call is taken as always: the model's choice, DESIGN CHOICE, unsafe (log 23; D24 leaves it open). -/
def step (s : State) : Host.Outcome State Fault Refusal :=
  match fetch s with
  | .quiet => .next s
  | .operation i s' => exec i s'
  | .unreadable e => .refused (.undecodable e)

/-- `s` with a table word as the host's next call (log 1, log 2); a row of width 0 has no word, and `s` stays as it is. -/
def State.withFetchWord (s : State) (nbits w : Nat) : State :=
  putCall (tableRequest nbits w) s

end Sys2Proof.Machine
end

