-- ==== Sys2Proof/Safety.lean ====
section
/-! DEFINITION. The terms that claims about the block use: what the streams answer, the run of a scan turn by turn, which
noise a scan passes over, and the invariant of the machine. -/

namespace Sys2Proof.Machine

/-! ## What the streams answer -/

/-- The reply to the next `TxWrite`: the first listed one, or a free answer (R33, log 8). -/
def nextTxReply (tx : TxStream) : Reply TxAnswer :=
  match tx.future with
  | [] => .answer (Config.freeTx tx.calls)
  | r :: _ => r

/-- The TX stream after one more `TxWrite`, with the log as given. -/
def txAfter (tx : TxStream) (log : List (List Byte)) : TxStream :=
  { future := tx.future.tail, calls := tx.calls + 1, log := log }

/-- Calls of `RxRead(1)` hand over these bytes one by one and leave the stream as given. -/
def OneByOne : List Byte → RxStream → RxStream → Prop
  | [], rx, rx' => rx' = rx
  | b :: bs, rx, rx' => ∃ mid, rxRead 1 rx = (.answer (.data [b]), mid) ∧ OneByOne bs mid rx'

/-- Every reply listed in the state is an answer: the assumption ANSWERS (D24) for the listed part of the streams. Free
answers are answers by their type. -/
def Answers (s : State) : Prop :=
  Reply.never ∉ s.rx.future ∧ Reply.never ∉ s.tx.future

/-! ## The run of a scan -/

/-- SCANSTEPs are run from the first state until one answers with no next phase; the second state is what that one leaves
(R90: "the loop body is one SCANSTEP"). Nothing bounds their number here. -/
inductive StepsToResult : State → State → Prop where
  | last {s t : State} : exec .scanStep s = .next t → (∀ ph, t.returned ≠ .phase ph) → StepsToResult s t
  | more {s s' t : State} {ph : ScPhase} :
      exec .scanStep s = .next s' → s'.returned = .phase ph → StepsToResult s' t → StepsToResult s t

/-- That many SCANSTEPs lead from the first state to the second, each going on to phase HUNT or CMD: none ended the scan and
none matched both markers. -/
def Hunts : Nat → State → State → Prop
  | 0, s, t => t = s
  | n + 1, s, t =>
    ∃ s', exec .scanStep s = .next s' ∧ (s'.returned = .phase .hunt ∨ s'.returned = .phase .cmd) ∧ Hunts n s' t

/-! ## Noise -/

/-- The length of the maximal run of 0xAA that the bytes end with (R93, R100). -/
def aaRun (bs : List Byte) : Nat :=
  (bs.reverse.takeWhile (· == Config.hdr)).length

/-- Conditions (a) and (b) of R100: no 0xC0 comes directly after a maximal run of 0xAA of odd length, and the bytes do not end
with one. -/
def HarmlessNoise (noise : List Byte) : Prop :=
  (∀ before after, noise = before ++ Config.cmdIdIn :: after → aaRun before % 2 = 0) ∧ aaRun noise % 2 = 0

/-- The two markers stand nowhere one after the other (R132). -/
def NoMarkers (bs : List Byte) : Prop :=
  ∀ before after, bs ≠ before ++ Config.hdr :: Config.cmdIdIn :: after

/-! ## The reading and the invariant -/

/-- The reading registers hold the same. -/
def SameReading (s t : State) : Prop :=
  t.rdPm25 = s.rdPm25 ∧ t.rdPm10 = s.rdPm10 ∧ t.rdStatus = s.rdStatus ∧ t.rdRaw = s.rdRaw

/-- The reading registers are those of the frame with payload `p` (R96, R110). -/
def ReadingOfFrame (p : Payload) (s : State) : Prop :=
  s.rdPm25 = some (pm25Raw p) ∧ s.rdPm10 = some (pm10Raw p) ∧ s.rdStatus = statusOf (verdictOf p) ∧ s.rdRaw = some p

/-- No frame has been located: the registers are those of reset (R28). -/
def NoReading (s : State) : Prop :=
  s.rdPm25 = none ∧ s.rdPm10 = none ∧ s.rdStatus = .empty ∧ s.rdRaw = none

/-- A value the host may trust after a READ (R154): it returned OK and the packet status is OK. -/
def Trusted (s : State) : Prop :=
  s.returned = .code .ok ∧ s.rdStatus = .ok

/-- The frames that operations other than RESET write (R31, R51). -/
def hostFrames : List (List Byte) := [queryFrame, wakeFrame, sleepFrame]

/-- The invariant of the machine: the reading is that of one frame or of none (R15), the budget count is within the budget
(R21), the TX log is empty or is the boot frame and then frames of the host operations (R31, R151), it is not empty while the
block can be used, and after a failed boot write nothing has happened (R152). That the log starts afresh with every RESET is the
model's choice (log 14). -/
structure Coherent (s : State) : Prop where
  reading : NoReading s ∨ ∃ p, ReadingOfFrame p s
  count : s.scCnt ≤ s.maxScan
  log : s.tx.log = [] ∨ ∃ fs, s.tx.log = setModeFrame :: fs ∧ ∀ f ∈ fs, f ∈ hostFrames
  booted : s.drvState = .idle → s.bootFault = false → s.tx.log ≠ []
  notBooted : s.bootFault = true → s.tx.log = [] ∧ NoReading s

/-- The host operations (R55): the ones a select code names. -/
def hostOperations : List Instr :=
  [.read, .wake, .sleep, .getPm25, .getPm10, .getStatus, .getRaw]

end Sys2Proof.Machine
end

