-- ==== Sys2Proof/Certificates/Slice0/Obligations.lean ====
section
/-! DEFINITION. The statements about the block, for the provers. Each docstring names the rule of spec/ it rests on. -/

open Sys2Proof Sys2Proof.Machine

/-! ## Encoding -/

/-- Decoding the request of a well-formed operation gives the operation back, for all operations and all operand values
(30_encoding.md R50 to R57). -/
def Obligations.DecodeOfEncodeIsIdentity : Prop :=
  ∀ i : Instr, WellFormed i → decode (encode i) = .ok i

/-- What decodes is well-formed, and no bit of a request is dropped: its encoding is the request that was decoded. The one
exception is SCAN, whose mask leaves the 8 payload bytes open (R52); of its word the two markers and the length are tested. -/
def Obligations.DecodeReadsEveryBit : Prop :=
  ∀ (r : Request) (i : Instr), decode r = .ok i →
    WellFormed i ∧
    ((∃ p : Payload, r = .measurementWord ([0xAA, 0xC0] ++ payloadBytes p) ∧ i = .scan) ∨
      ((∀ bs, r ≠ .measurementWord bs) ∧ encode i = r))

/-- Words written out from the spec's tables decode to the operations they stand for (R50, R51, R52, R57). -/
def Obligations.SpecWordsDecode : Prop :=
  decode (.commandWord [0xAA, 0xB4, 0x04, 0, 0, 0, 0, 0, 0, 0, 0, 0, 0, 0, 0, 0xFF, 0xFF, 0x02, 0xAB]) = .ok .query ∧
  decode (.commandWord [0xAA, 0xB4, 0x08, 0x01, 0x05, 0, 0, 0, 0, 0, 0, 0, 0, 0, 0, 0xFF, 0xFF, 0x0C, 0xAB])
    = .ok (.build 0x08 0x01 0x05) ∧
  decode (.commandWord [0xAA, 0xB4, 0x08, 0x01, 0x05, 0, 0, 0, 0, 0, 0, 0, 0, 0, 0, 0xFF, 0xFF, 0x0D, 0xAB])
    = .error .checksum ∧
  decode (.measurementWord [0xAA, 0xC0, 0xB0, 0x04, 0xC2, 0x01, 0x12, 0x34, 0xBD, 0xAB]) = .ok .scan ∧
  decode (.decoderWord [0xB0, 0x04, 0xC2, 0x01, 0x12, 0x34, 0xBD, 0xAB])
    = .ok (.decode ⟨0xB0, 0x04, 0xC2, 0x01, 0x12, 0x34, 0xBD, 0xAB⟩) ∧
  decode (.select 0b000) = .ok .read ∧ decode (.select 0b010) = .ok .sleep ∧
  decode (.select 0b111) = .ok .reservedOpsel111

/-! ## The step -/

/-- A step takes the host's next call off the list and is the operation that the call decodes to (R166, D1; how the host's
calls are held is the model's choice, log 1). -/
def Obligations.StepRunsDecodedCall : Prop :=
  ∀ (s : State) (r : Request) (later : List Request) (i : Instr),
    s.calls = r :: later → decode r = .ok i → WellFormed i ∧ step s = exec i { s with calls := later }

/-- With no call the block is quiescent (R166), and a request that is no operation's is refused (the model's choice, log 1). -/
def Obligations.StepWithoutOperation : Prop :=
  (∀ s : State, s.calls = [] → step s = .next s) ∧
  (∀ (s : State) (r : Request) (later : List Request) (e : DecodeError),
    s.calls = r :: later → decode r = .error e → step s = .refused (.undecodable e))

/-! ## The streams -/

/-- `RxRead(n)` (R32, R34): it hands over the next bytes in order, at most n of them, and they are gone; no data and a failure
are answers too. How the stream lists what is at hand, and that a call may never answer, are the model's choices (log 6, log 9). -/
def Obligations.RxReadTakesNextBytes : Prop :=
  ∀ (n : Nat) (rx : RxStream) (later : List (Reply RxAnswer)),
    (∀ bs, rx.future = .answer (.data bs) :: later → bs.length ≤ n →
      rxRead n rx = (.answer (.data bs), { future := later, calls := rx.calls + 1 })) ∧
    (∀ bs, rx.future = .answer (.data bs) :: later → n < bs.length →
      rxRead n rx =
        (.answer (.data (bs.take n)), { future := .answer (.data (bs.drop n)) :: later, calls := rx.calls + 1 })) ∧
    (rx.future = .answer .fail :: later →
      rxRead n rx = (.answer .fail, { future := later, calls := rx.calls + 1 })) ∧
    (rx.future = .never :: later → rxRead n rx = (.never, { future := later, calls := rx.calls + 1 })) ∧
    (∀ bs rx', rxRead n rx = (.answer (.data bs), rx') → bs.length ≤ n)

/-- `TxWrite(bs)` (R33): ok appends the whole of bs to the log as one entry, fail appends nothing. -/
def Obligations.TxWriteAppendsWholeOrNothing : Prop :=
  ∀ (bs : List Byte) (tx : TxStream),
    (nextTxReply tx = .answer .ok → txWrite bs tx = (.answer .ok, txAfter tx (tx.log ++ [bs]))) ∧
    (nextTxReply tx = .answer .fail → txWrite bs tx = (.answer .fail, txAfter tx tx.log))

/-! ## The checksum unit -/

/-- R70: SUM8 is the sum of the bytes modulo 256, the same as an 8-bit adder that drops its carry gives, in any order. -/
def Obligations.Sum8IsSumModulo256 : Prop :=
  ∀ (bs : List Byte) (s : State), ∃ b : Byte,
    exec (.sum8 bs) s = .next { s with returned := .byte b } ∧
    b.toNat = (bs.map BitVec.toNat).sum % 256 ∧
    b = bs.foldl (· + ·) 0 ∧
    ∀ cs : List Byte, cs.Perm bs → exec (.sum8 cs) s = .next { s with returned := .byte b }

/-- R71: CSUMC's formula, its two shorter forms, and that it is SUM8 of offsets 2 to 16 of the frame. -/
def Obligations.CsumcFormula : Prop :=
  ∀ (c m p : Byte) (s : State), ∃ k : Byte,
    exec (.csumc c m p) s = .next { s with returned := .byte k } ∧
    k.toNat = (c.toNat + m.toNat + p.toNat + 255 + 255) % 256 ∧
    k.toNat = (c.toNat + m.toNat + p.toNat + 254) % 256 ∧
    k = c + m + p - 2 ∧
    ∃ f, exec (.build c m p) s = .next { s with returned := .frame f } ∧
      exec (.sum8 ((f.drop 2).take 15)) s = .next { s with returned := .byte k }

/-- R72: CSUMM is SUM8 of the six data bytes, none left out (R73: the ID bytes are part of it). -/
def Obligations.CsummIsSumOfSixDataBytes : Prop :=
  ∀ (d0 d1 d2 d3 d4 d5 : Byte) (s : State), ∃ k : Byte,
    exec (.csumm d0 d1 d2 d3 d4 d5) s = .next { s with returned := .byte k } ∧
    exec (.sum8 [d0, d1, d2, d3, d4, d5]) s = .next { s with returned := .byte k } ∧
    k.toNat = (d0.toNat + d1.toNat + d2.toNat + d3.toNat + d4.toNat + d5.toNat) % 256

/-- R74: the verdict is OK exactly when the checksum byte is the sum of the six data bytes modulo 256 and the tail is 0xAB; CHECK
writes nothing. -/
def Obligations.CheckVerdict : Prop :=
  ∀ (p : Payload) (s : State),
    exec (.check p) s = .next
      { s with returned := .verdict (if p.checksum.toNat = (p.pm25Lo.toNat + p.pm25Hi.toNat + p.pm10Lo.toNat + p.pm10Hi.toNat + p.id1.toNat + p.id2.toNat) % 256 ∧ p.tail = 0xAB then .ok else .nok) }

/-- R75, first half: every change of a single byte of a payload with verdict OK is detected. -/
def Obligations.CheckDetectsSingleByteChange : Prop :=
  ∀ (p q : Payload) (k : Nat) (b : Byte) (s : State),
    payloadBytes q = (payloadBytes p).set k b → q ≠ p →
    exec (.check p) s = .next { s with returned := .verdict .ok } →
    exec (.check q) s = .next { s with returned := .verdict .nok }

/-- R75, second half: changes whose effects on "sum minus checksum" cancel are not detected, nor is any reordering of the six
data bytes. -/
def Obligations.CheckMissesCancellingChanges : Prop :=
  ∀ (p q : Payload) (s : State), q.tail = p.tail →
    (q.pm25Lo + q.pm25Hi + q.pm10Lo + q.pm10Hi + q.id1 + q.id2 - q.checksum
        = p.pm25Lo + p.pm25Hi + p.pm10Lo + p.pm10Hi + p.id1 + p.id2 - p.checksum ∨
      q.checksum = p.checksum ∧
        [q.pm25Lo, q.pm25Hi, q.pm10Lo, q.pm10Hi, q.id1, q.id2].Perm
          [p.pm25Lo, p.pm25Hi, p.pm10Lo, p.pm10Hi, p.id1, p.id2]) →
    exec (.check q) s = exec (.check p) s

/-! ## The encoder -/

/-- R80: BUILD gives the 19 bytes of the template, whatever its operands, and touches no stream and no register. -/
def Obligations.BuildFrame : Prop :=
  ∀ (c m p : Byte) (s : State), ∃ k : Byte,
    k.toNat = (c.toNat + m.toNat + p.toNat + 255 + 255) % 256 ∧
    exec (.build c m p) s = .next
      { s with returned := .frame [0xAA, 0xB4, c, m, p, 0x00, 0x00, 0x00, 0x00, 0x00, 0x00, 0x00, 0x00, 0x00, 0x00, 0xFF, 0xFF, k, 0xAB] }

/-- R51: the four named frames in full, and that each is BUILD at its operands. -/
def Obligations.NamedFrames : Prop :=
  ∀ s : State,
    (exec .query s = .next
        { s with returned := .frame [0xAA, 0xB4, 0x04, 0x00, 0x00, 0, 0, 0, 0, 0, 0, 0, 0, 0, 0, 0xFF, 0xFF, 0x02, 0xAB] } ∧
      exec .query s = exec (.build 0x04 0x00 0x00) s) ∧
    (exec .setMode s = .next
        { s with returned := .frame [0xAA, 0xB4, 0x02, 0x01, 0x01, 0, 0, 0, 0, 0, 0, 0, 0, 0, 0, 0xFF, 0xFF, 0x02, 0xAB] } ∧
      exec .setMode s = exec (.build 0x02 0x01 0x01) s) ∧
    (exec .wakeF s = .next
        { s with returned := .frame [0xAA, 0xB4, 0x06, 0x01, 0x01, 0, 0, 0, 0, 0, 0, 0, 0, 0, 0, 0xFF, 0xFF, 0x06, 0xAB] } ∧
      exec .wakeF s = exec (.build 0x06 0x01 0x01) s) ∧
    (exec .sleepF s = .next
        { s with returned := .frame [0xAA, 0xB4, 0x06, 0x01, 0x00, 0, 0, 0, 0, 0, 0, 0, 0, 0, 0, 0xFF, 0xFF, 0x05, 0xAB] } ∧
      exec .sleepF s = exec (.build 0x06 0x01 0x00) s)

/-! ## The scanner and the decoder -/

/-- R96: the two fields little-endian, the status CHECK's verdict, the raw bytes unchanged; no register is written. -/
def Obligations.DecodeReading : Prop :=
  ∀ (p : Payload) (s : State), ∃ rd : Reading,
    exec (.decode p) s = .next { s with returned := .reading rd } ∧
    rd.pm25Raw.toNat = p.pm25Lo.toNat + 256 * p.pm25Hi.toNat ∧
    rd.pm10Raw.toNat = p.pm10Lo.toNat + 256 * p.pm10Hi.toNat ∧
    exec (.check p) s = .next { s with returned := .verdict rd.status } ∧
    rd.raw = p

/-- The rows of R103 for a one-byte read that answers with data. The count goes up by one where the read is charged: always
in HUNT, in CMD when CMD_READ_COUNTS is true (R91). -/
def Obligations.ScanStepMarkerRows : Prop :=
  ∀ (s : State) (rx : RxStream),
    (s.scPhase = .hunt → s.scCnt ≠ s.maxScan → rxRead 1 s.rx = (.answer (.data [0xAA]), rx) →
      exec .scanStep s = .next
        { s with scPhase := .cmd, scCnt := s.scCnt + 1, rx := rx, returned := .phase .cmd }) ∧
    (∀ b : Byte, b ≠ 0xAA → s.scPhase = .hunt → s.scCnt ≠ s.maxScan → rxRead 1 s.rx = (.answer (.data [b]), rx) →
      exec .scanStep s = .next { s with scCnt := s.scCnt + 1, rx := rx, returned := .phase .hunt }) ∧
    (s.scPhase = .hunt → s.scCnt ≠ s.maxScan → rxRead 1 s.rx = (.answer (.data []), rx) →
      exec .scanStep s = .next { s with scCnt := s.scCnt + 1, rx := rx, returned := .phase .hunt }) ∧
    (s.scPhase = .cmd → (s.cmdReadCounts = true → s.scCnt ≠ s.maxScan) → rxRead 1 s.rx = (.answer (.data [0xC0]), rx) →
      exec .scanStep s = .next
        { s with scPhase := .payload, scCnt := if s.cmdReadCounts then s.scCnt + 1 else s.scCnt, rx := rx,
                 returned := .phase .payload }) ∧
    (∀ b : Byte, b ≠ 0xC0 → s.scPhase = .cmd → (s.cmdReadCounts = true → s.scCnt ≠ s.maxScan) →
      rxRead 1 s.rx = (.answer (.data [b]), rx) →
      exec .scanStep s = .next
        { s with scPhase := .hunt, scCnt := if s.cmdReadCounts then s.scCnt + 1 else s.scCnt, rx := rx,
                 returned := .phase .hunt }) ∧
    (s.scPhase = .cmd → (s.cmdReadCounts = true → s.scCnt ≠ s.maxScan) → rxRead 1 s.rx = (.answer (.data []), rx) →
      exec .scanStep s = .next
        { s with scPhase := .hunt, scCnt := if s.cmdReadCounts then s.scCnt + 1 else s.scCnt, rx := rx,
                 returned := .phase .hunt })

/-- The other rows of R103: the payload read (R94, R95), a failing read in every phase, and the budget used up, tested before
the read (R91, R137). -/
def Obligations.ScanStepEndRows : Prop :=
  ∀ (s : State) (rx : RxStream),
    (∀ p : Payload, s.scPhase = .payload → rxRead 8 s.rx = (.answer (.data (payloadBytes p)), rx) →
      ∃ rd, exec (.decode p) s = .next { s with returned := .reading rd } ∧
        exec .scanStep s = .next { s with rx := rx, returned := .scan (.found rd) }) ∧
    (∀ bs : List Byte, bs.length ≤ 7 → s.scPhase = .payload → rxRead 8 s.rx = (.answer (.data bs), rx) →
      exec .scanStep s = .next { s with rx := rx, returned := .scan .decodeFailure }) ∧
    (s.scPhase = .payload → rxRead 8 s.rx = (.answer .fail, rx) →
      exec .scanStep s = .next { s with rx := rx, returned := .scan .transportFault }) ∧
    (s.scPhase = .hunt → s.scCnt ≠ s.maxScan → rxRead 1 s.rx = (.answer .fail, rx) →
      exec .scanStep s = .next { s with scCnt := s.scCnt + 1, rx := rx, returned := .scan .transportFault }) ∧
    (s.scPhase = .cmd → (s.cmdReadCounts = true → s.scCnt ≠ s.maxScan) → rxRead 1 s.rx = (.answer .fail, rx) →
      exec .scanStep s = .next
        { s with scCnt := if s.cmdReadCounts then s.scCnt + 1 else s.scCnt, rx := rx,
                 returned := .scan .transportFault }) ∧
    (s.scPhase = .hunt ∨ s.scPhase = .cmd ∧ s.cmdReadCounts = true → s.scCnt = s.maxScan →
      exec .scanStep s = .next { s with returned := .scan .notFound })

/-- SCAN always ends: from HUNT and count 0, SCANSTEPs lead to one result and no other, SCAN is that result, and it writes the
scanner's own state and the RX stream only; the count stays within the budget (R90, R98, R101, under the assumption ANSWERS for a
result other than `pending`). -/
def Obligations.ScanIsRepeatedScanStep : Prop :=
  ∀ s : State, ∃ t : State,
    StepsToResult { s with scPhase := .hunt, scCnt := 0 } t ∧
    (∀ t', StepsToResult { s with scPhase := .hunt, scCnt := 0 } t' → t' = t) ∧
    exec .scan s = .next t ∧
    t = { s with scPhase := t.scPhase, scCnt := t.scCnt, rx := t.rx, returned := t.returned } ∧
    t.scCnt ≤ s.maxScan ∧
    (Answers s → t.returned ≠ .pending)

/-- The bound of R101 and R102 on the calls of one SCAN, and that a SCAN that ends in NotFound has used its whole budget. -/
def Obligations.ScanReadCallsBounded : Prop :=
  ∀ s t : State, exec .scan s = .next t →
    s.rx.calls ≤ t.rx.calls ∧
    (s.cmdReadCounts = true → t.rx.calls ≤ s.rx.calls + s.maxScan + 1) ∧
    (s.cmdReadCounts = false → t.rx.calls ≤ s.rx.calls + 2 * s.maxScan + 1) ∧
    (t.returned = .scan .notFound → t.scCnt = s.maxScan ∧
      (s.cmdReadCounts = true → t.rx.calls = s.rx.calls + s.maxScan))

/-- MAXSCAN = 0 makes every SCAN return NotFound without a read (R22, R91). -/
def Obligations.ScanWithZeroBudgetReadsNothing : Prop :=
  ∀ s : State, s.maxScan = 0 →
    exec .scan s = .next { s with scPhase := .hunt, scCnt := 0, returned := .scan .notFound }

/-- A budget of one unit tells the two settings of CMD_READ_COUNTS apart (R91, R102). -/
def Obligations.ScanWithBudgetOfOne : Prop :=
  ∀ (s : State) (p : Payload) (rx1 rx2 rx3 : RxStream),
    s.maxScan = 1 →
    rxRead 1 s.rx = (.answer (.data [0xAA]), rx1) → rxRead 1 rx1 = (.answer (.data [0xC0]), rx2) →
    rxRead 8 rx2 = (.answer (.data (payloadBytes p)), rx3) →
    (s.cmdReadCounts = true →
      exec .scan s = .next { s with scPhase := .cmd, scCnt := 1, rx := rx1, returned := .scan .notFound }) ∧
    (s.cmdReadCounts = false →
      exec .scan s = .next
        { s with scPhase := .payload, scCnt := 1, rx := rx3, returned := .scan (.found (readingOf p)) })

/-- R100: noise under conditions (a) and (b), then a frame, every read answered in full, a budget of at least the noise and the
two markers: SCAN finds the frame, whatever its payload and whatever CMD_READ_COUNTS. -/
def Obligations.ScanFindsFrameAfterHarmlessNoise : Prop :=
  ∀ (s : State) (noise : List Byte) (p : Payload) (rx1 rx2 : RxStream),
    HarmlessNoise noise → noise.length + 2 ≤ s.maxScan →
    OneByOne (noise ++ [0xAA, 0xC0]) s.rx rx1 →
    rxRead 8 rx1 = (.answer (.data (payloadBytes p)), rx2) →
    ∃ n, n ≤ noise.length + 2 ∧ (s.cmdReadCounts = true → n = noise.length + 2) ∧
      exec .scan s = .next
        { s with scPhase := .payload, scCnt := n, rx := rx2, returned := .scan (.found (readingOf p)) }

/-- R100, "which is the case exactly when": the scanner reads the noise without matching the markers and stands in HUNT after
it if and only if the noise meets (a) and (b). -/
def Obligations.HuntingThroughNoiseIffHarmless : Prop :=
  ∀ (s : State) (noise : List Byte) (rx1 : RxStream),
    noise.length ≤ s.maxScan → OneByOne noise s.rx rx1 →
    ((∃ t, Hunts noise.length { s with scPhase := .hunt, scCnt := 0 } t ∧ t.scPhase = .hunt) ↔ HarmlessNoise noise)

/-! ## The sequencer -/

/-- R110, R111: what READ does after its query has been written, by the result of the scan. The query is written before the
scan, the registers are written together on Found only, DRV_STATE ends IDLE. -/
def Obligations.ReadByScanResult : Prop :=
  ∀ s t : State, s.drvState = .idle → s.bootFault = false → nextTxReply s.tx = .answer .ok →
    StepsToResult { s with scPhase := .hunt, scCnt := 0 } t →
    (∀ rd, t.returned = .scan (.found rd) →
      exec .read s = .next
        { s with rdPm25 := some rd.pm25Raw, rdPm10 := some rd.pm10Raw, rdStatus := statusOf rd.status,
                 rdRaw := some rd.raw, scPhase := t.scPhase, scCnt := t.scCnt, rx := t.rx,
                 tx := txAfter s.tx (s.tx.log ++ [queryFrame]), returned := .code .ok }) ∧
    (t.returned = .scan .notFound ∨ t.returned = .scan .decodeFailure →
      exec .read s = .next
        { s with scPhase := t.scPhase, scCnt := t.scCnt, rx := t.rx,
                 tx := txAfter s.tx (s.tx.log ++ [queryFrame]), returned := .code .nok }) ∧
    (t.returned = .scan .transportFault →
      exec .read s = .next
        { s with scPhase := t.scPhase, scCnt := t.scCnt, rx := t.rx,
                 tx := txAfter s.tx (s.tx.log ++ [queryFrame]), returned := .code .fault })

/-- R110 with R100: a READ that meets harmless noise and then a frame returns OK and overwrites all four registers with that
frame, its query frame standing in the TX log; everything else but the scanner's own state is unchanged. -/
def Obligations.ReadStoresFrameAfterHarmlessNoise : Prop :=
  ∀ (s : State) (noise : List Byte) (p : Payload) (rx1 rx2 : RxStream),
    s.drvState = .idle → s.bootFault = false → nextTxReply s.tx = .answer .ok →
    HarmlessNoise noise → noise.length + 2 ≤ s.maxScan →
    OneByOne (noise ++ [0xAA, 0xC0]) s.rx rx1 →
    rxRead 8 rx1 = (.answer (.data (payloadBytes p)), rx2) →
    ∃ (n : Nat) (raw25 raw10 : Word16),
      raw25.toNat = p.pm25Lo.toNat + 256 * p.pm25Hi.toNat ∧ raw10.toNat = p.pm10Lo.toNat + 256 * p.pm10Hi.toNat ∧
      exec .read s = .next
        { s with rdPm25 := some raw25, rdPm10 := some raw10,
                 rdStatus := if p.checksum = p.pm25Lo + p.pm25Hi + p.pm10Lo + p.pm10Hi + p.id1 + p.id2 ∧ p.tail = 0xAB
                   then .ok else .nok,
                 rdRaw := some p, scPhase := .payload, scCnt := n, rx := rx2,
                 tx := txAfter s.tx (s.tx.log ++ [queryFrame]), returned := .code .ok }

/-- R95, R133: harmless noise, the markers, and then a payload read of fewer than 8 bytes: READ returns NOK at once, the bytes
are consumed, the reading is as it was. -/
def Obligations.ReadOfShortPayloadReturnsNok : Prop :=
  ∀ (s : State) (noise bs : List Byte) (rx1 rx2 : RxStream),
    s.drvState = .idle → s.bootFault = false → nextTxReply s.tx = .answer .ok →
    HarmlessNoise noise → noise.length + 2 ≤ s.maxScan →
    OneByOne (noise ++ [0xAA, 0xC0]) s.rx rx1 →
    bs.length ≤ 7 → rxRead 8 rx1 = (.answer (.data bs), rx2) →
    ∃ n, exec .read s = .next
      { s with scPhase := .payload, scCnt := n, rx := rx2,
               tx := txAfter s.tx (s.tx.log ++ [queryFrame]), returned := .code .nok }

/-- R132: a byte stream with no `AA C0` within the scan budget makes READ return NOK and leaves the reading as it was. -/
def Obligations.ReadWithoutMarkersKeepsReading : Prop :=
  ∀ (s : State) (bs : List Byte) (rx1 : RxStream),
    s.drvState = .idle → s.bootFault = false → nextTxReply s.tx = .answer .ok → s.cmdReadCounts = true →
    bs.length = s.maxScan → NoMarkers bs → OneByOne bs s.rx rx1 →
    ∃ ph, exec .read s = .next
      { s with scPhase := ph, scCnt := s.maxScan, rx := rx1,
               tx := txAfter s.tx (s.tx.log ++ [queryFrame]), returned := .code .nok }

/-- R154: the values are to be trusted when the packet status is OK and the READ returned OK: they are then those of a frame
that passes CHECK. -/
def Obligations.TrustedReadingPassesCheck : Prop :=
  ∀ s t : State, exec .read s = .next t → Trusted t →
    ∃ p, ReadingOfFrame p t ∧ exec (.check p) t = .next { t with returned := .verdict .ok }

/-- R112, R113: WAKE and SLEEP write their frame, return OK, and change nothing else. -/
def Obligations.WakeAndSleepWriteTheirFrames : Prop :=
  ∀ s : State, s.drvState = .idle → s.bootFault = false → nextTxReply s.tx = .answer .ok →
    exec .wake s = .next
      { s with tx := txAfter s.tx (s.tx.log ++
                 [[0xAA, 0xB4, 0x06, 0x01, 0x01, 0, 0, 0, 0, 0, 0, 0, 0, 0, 0, 0xFF, 0xFF, 0x06, 0xAB]]),
               returned := .code .ok } ∧
    exec .sleep s = .next
      { s with tx := txAfter s.tx (s.tx.log ++
                 [[0xAA, 0xB4, 0x06, 0x01, 0x00, 0, 0, 0, 0, 0, 0, 0, 0, 0, 0, 0xFF, 0xFF, 0x05, 0xAB]]),
               returned := .code .ok }

/-- R131: READ, WAKE and SLEEP whose write fails return FAULT, log nothing, read nothing and keep every register; the block
stays usable (DRV_STATE is IDLE). -/
def Obligations.FailedWriteReturnsFault : Prop :=
  ∀ s : State, s.drvState = .idle → s.bootFault = false → nextTxReply s.tx = .answer .fail →
    exec .read s = .next { s with tx := txAfter s.tx s.tx.log, returned := .code .fault } ∧
    exec .wake s = .next { s with tx := txAfter s.tx s.tx.log, returned := .code .fault } ∧
    exec .sleep s = .next { s with tx := txAfter s.tx s.tx.log, returned := .code .fault }

/-- The model's choice of log 9 for D24 and R161: an operation that meets a call that never answers does not return. What it
did before stays done, DRV_STATE stays BUSY, nothing is handed back. That the TX log is empty after such a RESET, also a second
one, is the model's choice of log 14. -/
def Obligations.UnansweredCallLeavesBusy : Prop :=
  ∀ s : State,
    (s.drvState = .idle → s.bootFault = false → nextTxReply s.tx = .never →
      ∀ i ∈ [Instr.read, .wake, .sleep],
        exec i s = .next { s with drvState := .busy, tx := txAfter s.tx s.tx.log, returned := .pending }) ∧
    (∀ t, s.drvState = .idle → s.bootFault = false → nextTxReply s.tx = .answer .ok →
      StepsToResult { s with scPhase := .hunt, scCnt := 0 } t → t.returned = .pending →
      exec .read s = .next
        { s with drvState := .busy, scPhase := t.scPhase, scCnt := t.scCnt, rx := t.rx,
                 tx := txAfter s.tx (s.tx.log ++ [queryFrame]), returned := .pending }) ∧
    (nextTxReply s.tx = .never →
      ∀ n, ∃ t, exec (.reset n) s = .next t ∧ t.drvState = .busy ∧ t.returned = .pending ∧ t.tx.log = [])

/-- R114, R115: GETPM25 and GETPM10 hand back `none`, or the exact decimal raw / 10, and change nothing. -/
def Obligations.ConcentrationAccessors : Prop :=
  ∀ s : State, s.drvState = .idle → s.bootFault = false →
    (s.rdPm25 = none → exec .getPm25 s = .next { s with returned := .concentration none }) ∧
    (∀ raw, s.rdPm25 = some raw → ∃ c : Concentration, 10 * c.whole + c.tenth.val = raw.toNat ∧
      exec .getPm25 s = .next { s with returned := .concentration (some c) }) ∧
    (s.rdPm10 = none → exec .getPm10 s = .next { s with returned := .concentration none }) ∧
    (∀ raw, s.rdPm10 = some raw → ∃ c : Concentration, 10 * c.whole + c.tenth.val = raw.toNat ∧
      exec .getPm10 s = .next { s with returned := .concentration (some c) })

/-- R116, R117: GETSTATUS hands back RD_STATUS and GETRAW hands back RD_RAW; nothing changes. -/
def Obligations.StatusAndRawAccessors : Prop :=
  ∀ s : State, s.drvState = .idle → s.bootFault = false →
    exec .getStatus s = .next { s with returned := .status s.rdStatus } ∧
    exec .getRaw s = .next { s with returned := .raw s.rdRaw }

/-- R60: OPSEL 111 is refused in every state. -/
def Obligations.ReservedCodeRefused : Prop :=
  ∀ s : State, exec .reservedOpsel111 s = .refused .reservedSelectCode

/-- R19, R27, R130, U3: a host operation started while BUSY is refused. -/
def Obligations.HostOperationsRefusedWhileBusy : Prop :=
  ∀ (i : Instr) (s : State), i ∈ hostOperations → s.drvState = .busy → exec i s = .refused .startedWhileBusy

/-- R19: every host operation that starts ends with DRV_STATE IDLE and a result, whatever its outcome, when every listed reply
is an answer (D24). -/
def Obligations.HostOperationsEndIdle : Prop :=
  ∀ (i : Instr) (s : State), i ∈ hostOperations → s.drvState = .idle → s.bootFault = false → Answers s →
    ∃ t, exec i s = .next t ∧ t.drvState = .idle ∧ t.returned ≠ .pending

/-! ## Reset -/

/-- R150: RESET clears the reading, takes its budget, and returns OK with the boot frame as the one entry of the TX log; it
reads nothing from RX. That the TX log of the fresh instance starts empty, also on a second RESET, is the model's choice
(log 14). -/
def Obligations.ResetMakesFreshInstance : Prop :=
  ∀ (s : State) (n : Nat), nextTxReply s.tx = .answer .ok →
    ∃ t, exec (.reset n) s = .next t ∧ NoReading t ∧ t.drvState = .idle ∧ t.bootFault = false ∧ t.maxScan = n ∧
      t.tx = txAfter s.tx [[0xAA, 0xB4, 0x02, 0x01, 0x01, 0, 0, 0, 0, 0, 0, 0, 0, 0, 0, 0xFF, 0xFF, 0x02, 0xAB]] ∧
      t.returned = .code .ok ∧ t.rx = s.rx ∧ t.cmdReadCounts = s.cmdReadCounts ∧ t.calls = s.calls

/-- A failed boot write makes RESET return FAULT and set BOOT_FAULT, with the reading cleared and nothing read from RX (R150,
R28) and nothing logged (R33); from then on every host operation is refused, and BOOT_FAULT stays until a new RESET (R152). That
the TX log of the fresh instance starts empty, also on a second RESET, is the model's choice (log 14). -/
def Obligations.BootFailureRefusesUntilReset : Prop :=
  (∀ (s : State) (n : Nat), nextTxReply s.tx = .answer .fail →
    ∃ t, exec (.reset n) s = .next t ∧ t.returned = .code .fault ∧ t.bootFault = true ∧ t.drvState = .idle ∧
      t.tx.log = [] ∧ NoReading t ∧ t.rx = s.rx) ∧
  (∀ (i : Instr) (s : State), i ∈ hostOperations → s.drvState = .idle → s.bootFault = true →
    exec i s = .refused .bootWriteFailed) ∧
  (∀ (i : Instr) (s t : State), (∀ n, i ≠ .reset n) → s.bootFault = true → exec i s = .next t → t.bootFault = true)

/-- The reset state is what RESET with the default budget leaves when its boot write answers ok (R28). That the scanner stands
in HUNT with count 0 then, and that the boot write answered ok, are the model's choices (log 10, log 11), and so is
that the TX log of the fresh instance starts empty, also on a second RESET (log 14). -/
def Obligations.ResetStateIsResultOfReset : Prop :=
  ∀ s : State, nextTxReply s.tx = .answer .ok → s.cmdReadCounts = true →
    exec (.reset 512) s = .next
      { State.reset with rx := s.rx, tx := { s.tx with future := s.tx.future.tail, calls := s.tx.calls + 1,
                                                       log := State.reset.tx.log }, calls := s.calls }

/-! ## The whole machine -/

/-- R15: the reading registers keep their values across every operation but RESET and a READ that located a frame; a READ that
returns OK leaves all four as those of one frame, and one that does not return OK leaves them as they were. -/
def Obligations.ReadingKeptUnlessFrameFound : Prop :=
  ∀ (i : Instr) (s t : State), (∀ n, i ≠ .reset n) → exec i s = .next t →
    (i ≠ .read → SameReading s t) ∧
    (i = .read → (t.returned = .code .ok → ∃ p, ReadingOfFrame p t) ∧
      (t.returned ≠ .code .ok → SameReading s t))

/-- R16: RD_STATUS never returns to EMPTY except by reset. -/
def Obligations.StatusNeverReturnsToEmpty : Prop :=
  ∀ (i : Instr) (s t : State), (∀ n, i ≠ .reset n) → s.rdStatus ≠ .empty → exec i s = .next t → t.rdStatus ≠ .empty

/-- R31, R33: only READ, WAKE and SLEEP write TX (RESET apart), each at most one whole frame, its own; nothing is taken back from
the log. -/
def Obligations.TxLogGrowsByOwnFrames : Prop :=
  ∀ (i : Instr) (s t : State), (∀ n, i ≠ .reset n) → exec i s = .next t →
    t.tx = s.tx ∨
    ((t.tx.log = s.tx.log ∨
        (i = .read ∧ t.tx.log = s.tx.log ++ [queryFrame]) ∨
        (i = .wake ∧ t.tx.log = s.tx.log ++ [wakeFrame]) ∨
        (i = .sleep ∧ t.tx.log = s.tx.log ++ [sleepFrame])) ∧
      i ∈ [.read, .wake, .sleep] ∧ t.tx.calls = s.tx.calls + 1 ∧ t.tx.future = s.tx.future.tail)

/-- R30, R35: only SCAN (also inside READ) and its turns read RX. -/
def Obligations.OnlyScannerReadsRx : Prop :=
  ∀ (i : Instr) (s t : State), i ∉ [Instr.scan, .scanStep, .read] → exec i s = .next t → t.rx = s.rx

/-- R22, R5: no operation but RESET changes MAXSCAN or BOOT_FAULT (R10), none changes CMD_READ_COUNTS, and none touches the
host's list (log 1). -/
def Obligations.ParametersFixedBetweenResets : Prop :=
  ∀ (i : Instr) (s t : State), exec i s = .next t →
    t.cmdReadCounts = s.cmdReadCounts ∧ t.calls = s.calls ∧
    ((∀ n, i ≠ .reset n) → t.maxScan = s.maxScan ∧ t.bootFault = s.bootFault)

/-- R31, R45: the block never reads the TX log back: two states that differ in the log alone do the same, and differ in the log
alone after. -/
def Obligations.TxLogIsNeverReadBack : Prop :=
  ∀ (i : Instr) (s t : State) (l : List (List Byte)), exec i s = .next t →
    ∃ l', exec i { s with tx := { s.tx with log := l } } = .next { t with tx := { t.tx with log := l' } }

/-- Every step keeps the invariant: one frame's reading or none (R15, R28), the budget count within the budget (R21), the TX log
the boot frame and then host frames (R28, R31, R150, R151), nothing done after a failed boot write (R152). It holds of every state
that meets the invariant, reached or not. That RESET starts the TX log afresh, also a second RESET, so that the log is empty while
BOOT_FAULT is true and has the boot frame only at its head, is the model's choice (log 14); so are what the count is outside a SCAN
(log 11, log 12) and that a RESET whose boot write is never answered leaves the block BUSY with an empty log (log 9). -/
def Obligations.StepKeepsInvariant : Prop :=
  ∀ s t : State, Coherent s → step s = .next t → Coherent t

/-- The reset state meets the invariant (R28; the model's choices of log 10 and log 11 are part of it). -/
def Obligations.ResetMeetsInvariant : Prop :=
  Coherent State.reset
end

