-- ==== Sys2Proof/Laws/Decode.lean ====
section
/-! SUPPORT. What the decoder answers for the frames of the spec, said once. -/

namespace Sys2Proof

@[simp] theorem commandFrame_length (c m p : Byte) : (commandFrame c m p).length = Config.cmdLen := rfl

@[simp] theorem payloadBytes_length (p : Payload) : (payloadBytes p).length = Config.payloadLen := rfl

@[simp] theorem payloadOfBytes_payloadBytes (p : Payload) : payloadOfBytes (payloadBytes p) = some p := rfl

/-- Only the 8 bytes of a payload are read as it (R52). -/
theorem payloadOfBytes_eq_some {bs : List Byte} {p : Payload} (h : payloadOfBytes bs = some p) : bs = payloadBytes p := by
  unfold payloadOfBytes at h
  split at h
  · cases h
    rfl
  · cases h

/-- A byte sequence is a payload exactly when it has 8 bytes (R94, R95). -/
theorem payloadOfBytes_eq_none {bs : List Byte} : payloadOfBytes bs = none ↔ bs.length ≠ Config.payloadLen := by
  constructor
  · intro h
    unfold payloadOfBytes at h
    split at h
    · cases h
    · rename_i hno
      intro hl
      match bs, hl with
      | [a, b, d, e, i, j, k, t], _ => exact hno a b d e i j k t rfl
  · intro h
    match hp : payloadOfBytes bs with
    | none => rfl
    | some p =>
      rw [payloadOfBytes_eq_some hp] at h
      exact absurd rfl h

/-- A frame of BUILD is read as that BUILD, or by the name it has (R50, R51). -/
theorem decodeCommandWord_commandFrame (c m p : Byte) :
    decodeCommandWord (commandFrame c m p) = .ok ((namedFrame c m p).getD (.build c m p)) := by
  simp [decodeCommandWord, commandFrame, Config.cmdLen, Config.nZero]

/-- The three low bits of a table word of a HOST row are its select code (log 2). -/
theorem decodeTableWord_select (w : Nat) : decodeTableWord 8 w = some (decodeSelect (BitVec.ofNat 3 w)) := rfl

end Sys2Proof
end

