-- ==== Sys2Proof/Laws/State.lean ====
section
/-! SUPPORT. What each update of the state does to each field: true by rfl, for simp. -/

namespace Sys2Proof.Machine

/-! ### A result handed back -/

@[simp] theorem give_rdPm25 (v : Returned) (s : State) : (give v s).rdPm25 = s.rdPm25 := rfl
@[simp] theorem give_rdPm10 (v : Returned) (s : State) : (give v s).rdPm10 = s.rdPm10 := rfl
@[simp] theorem give_rdStatus (v : Returned) (s : State) : (give v s).rdStatus = s.rdStatus := rfl
@[simp] theorem give_rdRaw (v : Returned) (s : State) : (give v s).rdRaw = s.rdRaw := rfl
@[simp] theorem give_drvState (v : Returned) (s : State) : (give v s).drvState = s.drvState := rfl
@[simp] theorem give_bootFault (v : Returned) (s : State) : (give v s).bootFault = s.bootFault := rfl
@[simp] theorem give_scPhase (v : Returned) (s : State) : (give v s).scPhase = s.scPhase := rfl
@[simp] theorem give_scCnt (v : Returned) (s : State) : (give v s).scCnt = s.scCnt := rfl
@[simp] theorem give_maxScan (v : Returned) (s : State) : (give v s).maxScan = s.maxScan := rfl
@[simp] theorem give_cmdReadCounts (v : Returned) (s : State) : (give v s).cmdReadCounts = s.cmdReadCounts := rfl
@[simp] theorem give_rx (v : Returned) (s : State) : (give v s).rx = s.rx := rfl
@[simp] theorem give_tx (v : Returned) (s : State) : (give v s).tx = s.tx := rfl
@[simp] theorem give_calls (v : Returned) (s : State) : (give v s).calls = s.calls := rfl
@[simp] theorem give_returned (v : Returned) (s : State) : (give v s).returned = v := rfl

/-! ### The end of a host operation -/

@[simp] theorem finish_rdPm25 (v : Returned) (s : State) : (finish v s).rdPm25 = s.rdPm25 := rfl
@[simp] theorem finish_rdPm10 (v : Returned) (s : State) : (finish v s).rdPm10 = s.rdPm10 := rfl
@[simp] theorem finish_rdStatus (v : Returned) (s : State) : (finish v s).rdStatus = s.rdStatus := rfl
@[simp] theorem finish_rdRaw (v : Returned) (s : State) : (finish v s).rdRaw = s.rdRaw := rfl
@[simp] theorem finish_drvState (v : Returned) (s : State) : (finish v s).drvState = .idle := rfl
@[simp] theorem finish_bootFault (v : Returned) (s : State) : (finish v s).bootFault = s.bootFault := rfl
@[simp] theorem finish_scPhase (v : Returned) (s : State) : (finish v s).scPhase = s.scPhase := rfl
@[simp] theorem finish_scCnt (v : Returned) (s : State) : (finish v s).scCnt = s.scCnt := rfl
@[simp] theorem finish_maxScan (v : Returned) (s : State) : (finish v s).maxScan = s.maxScan := rfl
@[simp] theorem finish_cmdReadCounts (v : Returned) (s : State) : (finish v s).cmdReadCounts = s.cmdReadCounts := rfl
@[simp] theorem finish_rx (v : Returned) (s : State) : (finish v s).rx = s.rx := rfl
@[simp] theorem finish_tx (v : Returned) (s : State) : (finish v s).tx = s.tx := rfl
@[simp] theorem finish_calls (v : Returned) (s : State) : (finish v s).calls = s.calls := rfl
@[simp] theorem finish_returned (v : Returned) (s : State) : (finish v s).returned = v := rfl

/-! ### The reading stored -/

@[simp] theorem storeReading_rdPm25 (rd : Reading) (s : State) : (storeReading rd s).rdPm25 = some rd.pm25Raw := rfl
@[simp] theorem storeReading_rdPm10 (rd : Reading) (s : State) : (storeReading rd s).rdPm10 = some rd.pm10Raw := rfl
@[simp] theorem storeReading_rdStatus (rd : Reading) (s : State) : (storeReading rd s).rdStatus = statusOf rd.status := rfl
@[simp] theorem storeReading_rdRaw (rd : Reading) (s : State) : (storeReading rd s).rdRaw = some rd.raw := rfl
@[simp] theorem storeReading_drvState (rd : Reading) (s : State) : (storeReading rd s).drvState = s.drvState := rfl
@[simp] theorem storeReading_bootFault (rd : Reading) (s : State) : (storeReading rd s).bootFault = s.bootFault := rfl
@[simp] theorem storeReading_scPhase (rd : Reading) (s : State) : (storeReading rd s).scPhase = s.scPhase := rfl
@[simp] theorem storeReading_scCnt (rd : Reading) (s : State) : (storeReading rd s).scCnt = s.scCnt := rfl
@[simp] theorem storeReading_maxScan (rd : Reading) (s : State) : (storeReading rd s).maxScan = s.maxScan := rfl
@[simp] theorem storeReading_cmdReadCounts (rd : Reading) (s : State) : (storeReading rd s).cmdReadCounts = s.cmdReadCounts := rfl
@[simp] theorem storeReading_rx (rd : Reading) (s : State) : (storeReading rd s).rx = s.rx := rfl
@[simp] theorem storeReading_tx (rd : Reading) (s : State) : (storeReading rd s).tx = s.tx := rfl
@[simp] theorem storeReading_calls (rd : Reading) (s : State) : (storeReading rd s).calls = s.calls := rfl
@[simp] theorem storeReading_returned (rd : Reading) (s : State) : (storeReading rd s).returned = s.returned := rfl

/-! ### The start of a SCAN -/

@[simp] theorem scanStart_rdPm25 (s : State) : (scanStart s).rdPm25 = s.rdPm25 := rfl
@[simp] theorem scanStart_rdPm10 (s : State) : (scanStart s).rdPm10 = s.rdPm10 := rfl
@[simp] theorem scanStart_rdStatus (s : State) : (scanStart s).rdStatus = s.rdStatus := rfl
@[simp] theorem scanStart_rdRaw (s : State) : (scanStart s).rdRaw = s.rdRaw := rfl
@[simp] theorem scanStart_drvState (s : State) : (scanStart s).drvState = s.drvState := rfl
@[simp] theorem scanStart_bootFault (s : State) : (scanStart s).bootFault = s.bootFault := rfl
@[simp] theorem scanStart_scPhase (s : State) : (scanStart s).scPhase = .hunt := rfl
@[simp] theorem scanStart_scCnt (s : State) : (scanStart s).scCnt = 0 := rfl
@[simp] theorem scanStart_maxScan (s : State) : (scanStart s).maxScan = s.maxScan := rfl
@[simp] theorem scanStart_cmdReadCounts (s : State) : (scanStart s).cmdReadCounts = s.cmdReadCounts := rfl
@[simp] theorem scanStart_rx (s : State) : (scanStart s).rx = s.rx := rfl
@[simp] theorem scanStart_tx (s : State) : (scanStart s).tx = s.tx := rfl
@[simp] theorem scanStart_calls (s : State) : (scanStart s).calls = s.calls := rfl
@[simp] theorem scanStart_returned (s : State) : (scanStart s).returned = s.returned := rfl

/-! ### The fresh instance of RESET -/

@[simp] theorem freshInstance_rdPm25 (n : Nat) (s : State) : (freshInstance n s).rdPm25 = none := rfl
@[simp] theorem freshInstance_rdPm10 (n : Nat) (s : State) : (freshInstance n s).rdPm10 = none := rfl
@[simp] theorem freshInstance_rdStatus (n : Nat) (s : State) : (freshInstance n s).rdStatus = .empty := rfl
@[simp] theorem freshInstance_rdRaw (n : Nat) (s : State) : (freshInstance n s).rdRaw = none := rfl
@[simp] theorem freshInstance_drvState (n : Nat) (s : State) : (freshInstance n s).drvState = .idle := rfl
@[simp] theorem freshInstance_bootFault (n : Nat) (s : State) : (freshInstance n s).bootFault = false := rfl
@[simp] theorem freshInstance_scPhase (n : Nat) (s : State) : (freshInstance n s).scPhase = .hunt := rfl
@[simp] theorem freshInstance_scCnt (n : Nat) (s : State) : (freshInstance n s).scCnt = 0 := rfl
@[simp] theorem freshInstance_maxScan (n : Nat) (s : State) : (freshInstance n s).maxScan = n := rfl
@[simp] theorem freshInstance_cmdReadCounts (n : Nat) (s : State) : (freshInstance n s).cmdReadCounts = s.cmdReadCounts := rfl
@[simp] theorem freshInstance_rx (n : Nat) (s : State) : (freshInstance n s).rx = s.rx := rfl
@[simp] theorem freshInstance_tx (n : Nat) (s : State) : (freshInstance n s).tx = { s.tx with log := [] } := rfl
@[simp] theorem freshInstance_calls (n : Nat) (s : State) : (freshInstance n s).calls = s.calls := rfl
@[simp] theorem freshInstance_returned (n : Nat) (s : State) : (freshInstance n s).returned = s.returned := rfl

end Sys2Proof.Machine
end

