-- ==== Sys2Proof/Laws/Ops.lean ====
section
/-! SUPPORT. What each shared operation can do, said once: the streams, one turn of the scanner, a whole scan, the start and
the end of a host operation. -/

namespace Sys2Proof.Machine

/-! ## The streams -/

@[simp] theorem rxRead_calls (n : Nat) (rx : RxStream) : (rxRead n rx).2.calls = rx.calls + 1 := by
  unfold rxRead rxServe
  repeat' split
  all_goals rfl

/-- Never more bytes than asked for (R32, D8). -/
theorem rxRead_data_length {n : Nat} {rx rx' : RxStream} {bs : List Byte}
    (h : rxRead n rx = (.answer (.data bs), rx')) : bs.length ≤ n := by
  unfold rxRead rxServe at h
  repeat' split at h
  all_goals simp_all
  all_goals (obtain ⟨rfl, -⟩ := h; simp)

/-- A call hangs only where the list says so (log 9). -/
theorem rxRead_never {n : Nat} {rx rx' : RxStream} (h : rxRead n rx = (.never, rx')) : Reply.never ∈ rx.future := by
  unfold rxRead rxServe at h
  repeat' split at h
  all_goals simp_all

/-- A call lists no hang that was not listed before. -/
theorem rxRead_future_never {n : Nat} {rx : RxStream} (h : Reply.never ∈ (rxRead n rx).2.future) :
    Reply.never ∈ rx.future := by
  unfold rxRead rxServe at h
  repeat' split at h
  all_goals simp_all

/-- `TxWrite`, said once (R33). -/
theorem txWrite_eq (bs : List Byte) (tx : TxStream) :
    txWrite bs tx = (nextTxReply tx, txAfter tx (if nextTxReply tx = .answer .ok then tx.log ++ [bs] else tx.log)) := by
  unfold txWrite nextTxReply txAfter
  split
  · rename_i h
    rw [h]
    cases Config.freeTx tx.calls <;> rfl
  · rename_i a later h
    rw [h]
    cases a <;> rfl
  · rename_i later h
    rw [h]
    rfl

@[simp] theorem txAfter_log (tx : TxStream) (l : List (List Byte)) : (txAfter tx l).log = l := rfl
@[simp] theorem txAfter_future (tx : TxStream) (l : List (List Byte)) : (txAfter tx l).future = tx.future.tail := rfl
@[simp] theorem txAfter_calls (tx : TxStream) (l : List (List Byte)) : (txAfter tx l).calls = tx.calls + 1 := rfl

/-! ## One turn of the scanner -/

/-- Everything a turn in phase HUNT or CMD can do (R91 to R93, R98). -/
theorem markerTurn_cases (s : State) :
    (charged s = true ∧ s.scCnt = s.maxScan ∧ markerTurn s = (.ends .notFound, s)) ∨
    (¬(charged s = true ∧ s.scCnt = s.maxScan) ∧
      ((∃ rx, rxRead 1 s.rx = (.never, rx) ∧
          markerTurn s = (.ends .blocked, { s with scCnt := countAfter s, rx := rx })) ∨
       (∃ rx, rxRead 1 s.rx = (.answer .fail, rx) ∧
          markerTurn s = (.ends .transportFault, { s with scCnt := countAfter s, rx := rx })) ∨
       (∃ bs rx, rxRead 1 s.rx = (.answer (.data bs), rx) ∧
          markerTurn s = (.goesOn (phaseAfter s.scPhase bs),
            { s with scPhase := phaseAfter s.scPhase bs, scCnt := countAfter s, rx := rx })))) := by
  unfold markerTurn
  by_cases h : charged s = true ∧ s.scCnt = s.maxScan
  · exact .inl ⟨h.1, h.2, if_pos h⟩
  · refine .inr ⟨h, ?_⟩
    rw [if_neg h]
    rcases rxRead 1 s.rx with ⟨(_ | _) | _, rx⟩
    · exact .inr (.inr ⟨_, rx, rfl, rfl⟩)
    · exact .inr (.inl ⟨rx, rfl, rfl⟩)
    · exact .inl ⟨rx, rfl, rfl⟩

/-- Everything the turn in phase PAYLOAD can do (R94, R95, R98). -/
theorem payloadTurn_cases (s : State) :
    (∃ rx, rxRead 8 s.rx = (.never, rx) ∧ payloadTurn s = (.ends .blocked, { s with rx := rx })) ∨
    (∃ rx, rxRead 8 s.rx = (.answer .fail, rx) ∧ payloadTurn s = (.ends .transportFault, { s with rx := rx })) ∨
    (∃ bs rx, rxRead 8 s.rx = (.answer (.data bs), rx) ∧
      payloadTurn s = (.ends (payloadResult bs), { s with rx := rx })) := by
  unfold payloadTurn
  rcases rxRead 8 s.rx with ⟨(_ | _) | _, rx⟩
  · exact .inr (.inr ⟨_, rx, rfl, rfl⟩)
  · exact .inr (.inl ⟨rx, rfl, rfl⟩)
  · exact .inl ⟨rx, rfl, rfl⟩

theorem scanTurn_marker {s : State} (h : s.scPhase ≠ .payload) : scanTurn s = markerTurn s := by
  unfold scanTurn
  cases hp : s.scPhase <;> simp_all

theorem scanTurn_payload {s : State} (h : s.scPhase = .payload) : scanTurn s = payloadTurn s := by
  unfold scanTurn
  rw [h]

/-- A turn writes SC_PHASE, SC_CNT and the RX stream only (R90, "Flags written: none"). -/
theorem scanTurn_frame (s : State) :
    (scanTurn s).2 =
      { s with scPhase := (scanTurn s).2.scPhase, scCnt := (scanTurn s).2.scCnt, rx := (scanTurn s).2.rx } := by
  by_cases h : s.scPhase = .payload
  · rw [scanTurn_payload h]
    rcases payloadTurn_cases s with ⟨rx, -, e⟩ | ⟨rx, -, e⟩ | ⟨bs, rx, -, e⟩ <;> rw [e]
  · rw [scanTurn_marker h]
    rcases markerTurn_cases s with ⟨-, -, e⟩ | ⟨-, ⟨rx, -, e⟩ | ⟨rx, -, e⟩ | ⟨bs, rx, -, e⟩⟩ <;> rw [e]

/-- A turn that goes on went on to the phase it stored. -/
theorem scanTurn_goesOn_phase {s s' : State} {ph : ScPhase} (h : scanTurn s = (.goesOn ph, s')) : s'.scPhase = ph := by
  by_cases hp : s.scPhase = .payload
  · rw [scanTurn_payload hp] at h
    rcases payloadTurn_cases s with ⟨rx, -, e⟩ | ⟨rx, -, e⟩ | ⟨bs, rx, -, e⟩ <;> simp [e] at h
  · rw [scanTurn_marker hp] at h
    rcases markerTurn_cases s with ⟨-, -, e⟩ | ⟨-, ⟨rx, -, e⟩ | ⟨rx, -, e⟩ | ⟨bs, rx, -, e⟩⟩ <;> simp [e] at h
    obtain ⟨rfl, rfl⟩ := h
    rfl

/-- A turn keeps the count within the budget (R21). -/
theorem scanTurn_count {s : State} (h : s.scCnt ≤ s.maxScan) : (scanTurn s).2.scCnt ≤ s.maxScan := by
  by_cases hp : s.scPhase = .payload
  · rw [scanTurn_payload hp]
    rcases payloadTurn_cases s with ⟨rx, -, e⟩ | ⟨rx, -, e⟩ | ⟨bs, rx, -, e⟩ <;> simpa [e] using h
  · rw [scanTurn_marker hp]
    rcases markerTurn_cases s with ⟨-, -, e⟩ | ⟨hc, ⟨rx, -, e⟩ | ⟨rx, -, e⟩ | ⟨bs, rx, -, e⟩⟩
    · simpa [e] using h
    all_goals
      rw [e]
      simp only [countAfter]
      split <;> simp_all <;> omega

/-! ## A whole scan -/

/-- The scan loop of R90 as a relation on turns, with the result of the last one. -/
inductive ScanRuns : State → ScanResult → State → Prop where
  | ends {s t : State} {r : ScanResult} : scanTurn s = (.ends r, t) → ScanRuns s r t
  | goesOn {s s' t : State} {ph : ScPhase} {r : ScanResult} :
      scanTurn s = (.goesOn ph, s') → ScanRuns s' r t → ScanRuns s r t

/-- The most turns that can still follow: two for each unit of the budget that is left, and the turn that ends the scan. -/
def turnsLeft (s : State) : Nat :=
  match s.scPhase with
  | .hunt => 2 * (s.maxScan - s.scCnt) + 1
  | .cmd => 2 * (s.maxScan - s.scCnt) + 2
  | .payload => 1

/-- A turn that goes on uses up at least one of the turns left. -/
theorem turnsLeft_goesOn {s s' : State} {ph : ScPhase} (hc : s.scCnt ≤ s.maxScan)
    (h : scanTurn s = (.goesOn ph, s')) : turnsLeft s' + 1 ≤ turnsLeft s := by
  by_cases hp : s.scPhase = .payload
  · rw [scanTurn_payload hp] at h
    rcases payloadTurn_cases s with ⟨rx, -, e⟩ | ⟨rx, -, e⟩ | ⟨bs, rx, -, e⟩ <;> simp [e] at h
  · rw [scanTurn_marker hp] at h
    rcases markerTurn_cases s with ⟨-, -, e⟩ | ⟨hb, ⟨rx, -, e⟩ | ⟨rx, -, e⟩ | ⟨bs, rx, -, e⟩⟩ <;> simp [e] at h
    obtain ⟨rfl, rfl⟩ := h
    cases hs : s.scPhase with
    | payload => exact absurd hs hp
    | hunt =>
      have h1 : charged s = true := by simp [charged, hs]
      have h2 : s.scCnt ≠ s.maxScan := fun h => hb ⟨h1, h⟩
      by_cases hm : bs = [Config.hdr] <;> simp [turnsLeft, phaseAfter, countAfter, h1, hs, hm] <;> omega
    | cmd =>
      by_cases hm : bs = [Config.cmdIdIn] <;> simp [turnsLeft, phaseAfter, countAfter, hs, hm] <;> split <;> omega

/-- The loop with enough turns is the unbounded loop (R90; log 19). -/
theorem scanLoop_runs : ∀ (n : Nat) (s : State), s.scCnt ≤ s.maxScan → turnsLeft s ≤ n →
    ScanRuns s (scanLoop n s).1 (scanLoop n s).2
  | 0, s, _, h => by
    unfold turnsLeft at h
    split at h <;> omega
  | n + 1, s, hc, h => by
    unfold scanLoop
    split
    · rename_i r s' e
      exact .ends e
    · rename_i ph s' e
      have hm : s'.maxScan = s.maxScan := by
        have := congrArg State.maxScan (scanTurn_frame s)
        simpa [e] using this
      have hc' : s'.scCnt ≤ s'.maxScan := by
        have := scanTurn_count hc
        rw [e] at this
        rw [hm]
        exact this
      have ht := turnsLeft_goesOn hc e
      exact .goesOn e (scanLoop_runs n s' hc' (by omega))

/-- The run of a scan is one (R98: "complete and exclusive"). -/
theorem ScanRuns.unique {s t t' : State} {r r' : ScanResult} (h : ScanRuns s r t) (h' : ScanRuns s r' t') :
    r = r' ∧ t = t' := by
  induction h with
  | ends e =>
    cases h' with
    | ends e' => simpa [e] using e'
    | goesOn e' _ => simp [e] at e'
  | goesOn e _ ih =>
    cases h' with
    | ends e' => simp [e] at e'
    | goesOn e' hr =>
      rw [e] at e'
      obtain ⟨-, rfl⟩ := Prod.mk.inj e'
      exact ih hr

/-- A run of the scanner writes SC_PHASE, SC_CNT and the RX stream only. -/
theorem ScanRuns.frame {s t : State} {r : ScanResult} (h : ScanRuns s r t) :
    t = { s with scPhase := t.scPhase, scCnt := t.scCnt, rx := t.rx } := by
  induction h with
  | @ends s t r e => simpa [e] using scanTurn_frame s
  | @goesOn s s' t ph r e _ ih =>
    have hf := scanTurn_frame s
    rw [e] at hf
    simp only at hf
    rw [hf] at ih
    simpa using ih

theorem scanLoop_frame (n : Nat) (s : State) :
    (scanLoop n s).2 =
      { s with scPhase := (scanLoop n s).2.scPhase, scCnt := (scanLoop n s).2.scCnt, rx := (scanLoop n s).2.rx } := by
  induction n generalizing s with
  | zero => rfl
  | succ n ih =>
    have hf := scanTurn_frame s
    unfold scanLoop
    split
    · rename_i e
      simpa [e] using hf
    · rename_i s' e
      rw [e] at hf
      simp only at hf
      have := ih s'
      rw [hf] at this ⊢
      simpa using this

/-- SCAN writes SC_PHASE, SC_CNT and the RX stream only (R90). -/
theorem scan_frame (s : State) :
    (scan s).2 = { s with scPhase := (scan s).2.scPhase, scCnt := (scan s).2.scCnt, rx := (scan s).2.rx } := by
  simpa [scan, scanStart] using scanLoop_frame (2 * s.maxScan + 1) (scanStart s)

/-! ## Host operations -/

/-- When a host operation runs, and what then runs (R19, R152). -/
theorem hostOp_next {body : State → State} {s t : State} (h : hostOp body s = .next t) :
    s.drvState = .idle ∧ s.bootFault = false ∧ t = body { s with drvState := .busy, returned := .pending } := by
  unfold hostOp at h
  split at h
  · cases h
  · split at h
    · cases h
    · rename_i h1 h2
      refine ⟨?_, by simpa using h2, (Host.Outcome.next.inj h).symm⟩
      cases hd : s.drvState
      · rfl
      · exact absurd hd h1

/-- A host operation that may start does start. -/
theorem hostOp_runs {body : State → State} {s : State} (h1 : s.drvState = .idle) (h2 : s.bootFault = false) :
    hostOp body s = .next (body { s with drvState := .busy, returned := .pending }) := by
  simp [hostOp, h1, h2]

/-- A frame written, by the reply (R33, R131; log 9). -/
theorem writeThen_ok {f : List Byte} {rest : State → State} {s : State} (h : nextTxReply s.tx = .answer .ok) :
    writeThen f rest s = rest { s with tx := txAfter s.tx (s.tx.log ++ [f]) } := by
  unfold writeThen
  rw [txWrite_eq, h]
  simp

theorem writeThen_fail {f : List Byte} {rest : State → State} {s : State} (h : nextTxReply s.tx = .answer .fail) :
    writeThen f rest s = finish (.code .fault) { s with tx := txAfter s.tx s.tx.log } := by
  unfold writeThen
  rw [txWrite_eq, h]
  simp

theorem writeThen_never {f : List Byte} {rest : State → State} {s : State} (h : nextTxReply s.tx = .never) :
    writeThen f rest s = { s with tx := txAfter s.tx s.tx.log } := by
  unfold writeThen
  rw [txWrite_eq, h]
  simp

/-- A reply is one of three. -/
theorem nextTxReply_cases (tx : TxStream) :
    nextTxReply tx = .answer .ok ∨ nextTxReply tx = .answer .fail ∨ nextTxReply tx = .never := by
  rcases nextTxReply tx with (_ | _) | _ <;> simp

/-- The boot write, by the reply (R150 to R152; log 9). -/
theorem bootWrite_ok {s : State} (h : nextTxReply s.tx = .answer .ok) :
    bootWrite s = { s with tx := txAfter s.tx (s.tx.log ++ [setModeFrame]), returned := .code .ok } := by
  unfold bootWrite
  rw [txWrite_eq, h]
  simp

theorem bootWrite_fail {s : State} (h : nextTxReply s.tx = .answer .fail) :
    bootWrite s = { s with bootFault := true, tx := txAfter s.tx s.tx.log, returned := .code .fault } := by
  unfold bootWrite
  rw [txWrite_eq, h]
  simp

theorem bootWrite_never {s : State} (h : nextTxReply s.tx = .never) :
    bootWrite s = { s with drvState := .busy, tx := txAfter s.tx s.tx.log, returned := .pending } := by
  unfold bootWrite
  rw [txWrite_eq, h]
  simp

/-! ## The host's next call -/

/-- A step takes the host's next call and runs it. -/
theorem fetch_operation {s s' : State} {i : Instr} (h : fetch s = .operation i s') :
    ∃ r later, s.calls = r :: later ∧ decode r = .ok i ∧ s' = { s with calls := later } := by
  unfold fetch at h
  split at h
  · cases h
  · rename_i r later hc
    split at h
    · rename_i j hd
      cases h
      exact ⟨r, later, hc, hd, rfl⟩
    · cases h

end Sys2Proof.Machine
end

