-- ==== Sys2Proof/Laws/PerInstr.lean ====
section
/-! SUPPORT. Facts about every operation as a term, one lemma per constructor. -/

namespace Sys2Proof.Laws

/-- The bits of a request. -/
def requestBits : Request → Nat
  | .select _ => 3
  | .commandWord bs => 8 * bs.length
  | .measurementWord bs => 8 * bs.length
  | .decoderWord bs => 8 * bs.length
  | .validatorWord bs => 8 * bs.length
  | .unit _ => 0

/-- The column width_bits of spec/opcode_table.json. -/
def tableWidth : Instr → Nat
  | .build _ _ _ => 152
  | .query => 152
  | .setMode => 152
  | .wakeF => 152
  | .sleepF => 152
  | .scan => 80
  | .decode _ => 64
  | .check _ => 64
  | .read => 3
  | .wake => 3
  | .sleep => 3
  | .getPm25 => 3
  | .getPm10 => 3
  | .getStatus => 3
  | .getRaw => 3
  | .reservedOpsel111 => 3
  | .reset _ => 0
  | .sum8 _ => 0
  | .csumc _ _ _ => 0
  | .csumm _ _ _ _ _ _ => 0
  | .scanStep => 0

/-- An operation's request has the width that the opcode table gives its row. -/
def EncodeWidth.Statement (i : Instr) : Prop :=
  requestBits (encode i) = tableWidth i

theorem EncodeWidth.build (cmd mode param : Byte) : EncodeWidth.Statement (.build cmd mode param) := by
  simp [EncodeWidth.Statement, requestBits, encode, tableWidth, Config.cmdLen]
theorem EncodeWidth.query : EncodeWidth.Statement .query := rfl
theorem EncodeWidth.setMode : EncodeWidth.Statement .setMode := rfl
theorem EncodeWidth.wakeF : EncodeWidth.Statement .wakeF := rfl
theorem EncodeWidth.sleepF : EncodeWidth.Statement .sleepF := rfl
theorem EncodeWidth.scan : EncodeWidth.Statement .scan := rfl
theorem EncodeWidth.decode (p : Payload) : EncodeWidth.Statement (.decode p) := by
  simp [EncodeWidth.Statement, requestBits, Sys2Proof.encode, tableWidth, Config.payloadLen]
theorem EncodeWidth.check (p : Payload) : EncodeWidth.Statement (.check p) := by
  simp [EncodeWidth.Statement, requestBits, Sys2Proof.encode, tableWidth, Config.payloadLen]
theorem EncodeWidth.read : EncodeWidth.Statement .read := rfl
theorem EncodeWidth.wake : EncodeWidth.Statement .wake := rfl
theorem EncodeWidth.sleep : EncodeWidth.Statement .sleep := rfl
theorem EncodeWidth.getPm25 : EncodeWidth.Statement .getPm25 := rfl
theorem EncodeWidth.getPm10 : EncodeWidth.Statement .getPm10 := rfl
theorem EncodeWidth.getStatus : EncodeWidth.Statement .getStatus := rfl
theorem EncodeWidth.getRaw : EncodeWidth.Statement .getRaw := rfl
theorem EncodeWidth.reservedOpsel111 : EncodeWidth.Statement .reservedOpsel111 := rfl
theorem EncodeWidth.reset (maxScan : Nat) : EncodeWidth.Statement (.reset maxScan) := rfl
theorem EncodeWidth.sum8 (bs : List Byte) : EncodeWidth.Statement (.sum8 bs) := rfl
theorem EncodeWidth.csumc (cmd mode param : Byte) : EncodeWidth.Statement (.csumc cmd mode param) := rfl
theorem EncodeWidth.csumm (d0 d1 d2 d3 d4 d5 : Byte) : EncodeWidth.Statement (.csumm d0 d1 d2 d3 d4 d5) := rfl
theorem EncodeWidth.scanStep : EncodeWidth.Statement .scanStep := rfl

end Sys2Proof.Laws
end

