-- ==== Sys2Proof/Tests/Slice0.lean ====
section
/-! SUPPORT. The author's own tests: the well-formedness smoke, words written out from the spec's encodings, one-step tests from
the vectors of 95_test_vectors.md (named in each comment), and a witness for every statement that has hypotheses. -/

namespace Sys2Proof.Tests

open Sys2Proof.Machine

/-! ## Helpers -/

/-- The reset state with a budget, the replies to `RxRead` and the replies to `TxWrite` listed. -/
def start (budget : Nat) (rx : List (Reply RxAnswer)) (tx : List (Reply TxAnswer)) : State :=
  { State.reset with maxScan := budget, rx := { future := rx, calls := 0 },
                     tx := { future := tx, calls := 1, log := [setModeFrame] } }

/-- "RX = bytes" of 95_test_vectors.md, then no data for `quiet` calls. -/
def bytesThenQuiet (bs : List Byte) (quiet : Nat) : List (Reply RxAnswer) :=
  .answer (.data bs) :: List.replicate quiet (.answer (.data []))

/-- One field of the next state. -/
def next? {α : Type} (f : State → α) : Out → Option α
  | .next t => some (f t)
  | .fault _ => none
  | .refused _ => none

/-- The good payload G of 95_test_vectors.md. -/
def g : Payload := ⟨0xB0, 0x04, 0xC2, 0x01, 0x12, 0x34, 0xBD, 0xAB⟩

/-- The good frame F of 95_test_vectors.md. -/
def f : List Byte := [0xAA, 0xC0, 0xB0, 0x04, 0xC2, 0x01, 0x12, 0x34, 0xBD, 0xAB]

/-- The reading of G (V-D1). -/
def gReading : Reading := ⟨1200, 450, .ok, g⟩

/-! ## Well-formedness: BUILD at the operands of a named frame is refused as a term of its own -/

theorem test_illFormed_query : wellFormed (.build 0x04 0x00 0x00) = false := by decide
theorem test_illFormed_setMode : wellFormed (.build 0x02 0x01 0x01) = false := by decide
theorem test_illFormed_wakeF : wellFormed (.build 0x06 0x01 0x01) = false := by decide
theorem test_illFormed_sleepF : wellFormed (.build 0x06 0x01 0x00) = false := by decide
theorem test_wellFormed_build : wellFormed (.build 0x08 0x01 0x05) = true := by decide

/-! ## Decoding: words from R51, V-B8, R52, R57 -/

theorem test_decode_query : decode (.commandWord
    [0xAA, 0xB4, 0x04, 0, 0, 0, 0, 0, 0, 0, 0, 0, 0, 0, 0, 0xFF, 0xFF, 0x02, 0xAB]) = .ok .query := by decide
theorem test_decode_setMode : decode (.commandWord
    [0xAA, 0xB4, 0x02, 1, 1, 0, 0, 0, 0, 0, 0, 0, 0, 0, 0, 0xFF, 0xFF, 0x02, 0xAB]) = .ok .setMode := by decide
theorem test_decode_wakeF : decode (.commandWord
    [0xAA, 0xB4, 0x06, 1, 1, 0, 0, 0, 0, 0, 0, 0, 0, 0, 0, 0xFF, 0xFF, 0x06, 0xAB]) = .ok .wakeF := by decide
theorem test_decode_sleepF : decode (.commandWord
    [0xAA, 0xB4, 0x06, 1, 0, 0, 0, 0, 0, 0, 0, 0, 0, 0, 0, 0xFF, 0xFF, 0x05, 0xAB]) = .ok .sleepF := by decide
theorem test_decode_build : decode (.commandWord
    [0xAA, 0xB4, 0x08, 1, 5, 0, 0, 0, 0, 0, 0, 0, 0, 0, 0, 0xFF, 0xFF, 0x0C, 0xAB]) = .ok (.build 0x08 0x01 0x05) := by
  decide
theorem test_decode_scan : decode (.measurementWord f) = .ok .scan := by decide
theorem test_decode_decode : decode (.decoderWord [0xB0, 0x04, 0xC2, 0x01, 0x12, 0x34, 0xBD, 0xAB]) = .ok (.decode g) := by
  decide
theorem test_decode_check : decode (.validatorWord [0xB0, 0x04, 0xC2, 0x01, 0x12, 0x34, 0xBD, 0xAB]) = .ok (.check g) := by
  decide
theorem test_decode_select :
    [0b000, 0b001, 0b010, 0b011, 0b100, 0b101, 0b110, 0b111].map decodeSelect =
      [.read, .wake, .sleep, .getPm25, .getPm10, .getStatus, .getRaw, .reservedOpsel111] := by decide
theorem test_decode_units :
    [UnitCall.reset 16, .sum8 [1, 2], .csumc 1 2 3, .csumm 1 2 3 4 5 6, .scanStep].map decodeUnit =
      [.reset 16, .sum8 [1, 2], .csumc 1 2 3, .csumm 1 2 3 4 5 6, .scanStep] := by decide

/-- Every rejection by name: the fixed bytes of R50 and R52, one wrong at a time, and the lengths. -/
theorem test_decode_rejects :
    decode (.commandWord []) = .error .commandLength ∧
    decode (.commandWord [0xAB, 0xB4, 4, 0, 0, 0, 0, 0, 0, 0, 0, 0, 0, 0, 0, 0xFF, 0xFF, 2, 0xAB]) = .error .header ∧
    decode (.commandWord [0xAA, 0xC0, 4, 0, 0, 0, 0, 0, 0, 0, 0, 0, 0, 0, 0, 0xFF, 0xFF, 2, 0xAB]) = .error .commandId ∧
    decode (.commandWord [0xAA, 0xB4, 4, 0, 0, 0, 0, 0, 0, 0, 0, 0, 0, 0, 1, 0xFF, 0xFF, 2, 0xAB]) = .error .zeroPadding ∧
    decode (.commandWord [0xAA, 0xB4, 4, 0, 0, 0, 0, 0, 0, 0, 0, 0, 0, 0, 0, 0xFF, 0xFE, 2, 0xAB]) = .error .ffPadding ∧
    decode (.commandWord [0xAA, 0xB4, 4, 0, 0, 0, 0, 0, 0, 0, 0, 0, 0, 0, 0, 0xFF, 0xFF, 3, 0xAB]) = .error .checksum ∧
    decode (.commandWord [0xAA, 0xB4, 4, 0, 0, 0, 0, 0, 0, 0, 0, 0, 0, 0, 0, 0xFF, 0xFF, 2, 0xAA]) = .error .tail ∧
    decode (.measurementWord [0xAA, 0xC0]) = .error .measurementLength ∧
    decode (.measurementWord [0xAB, 0xC0, 0, 0, 0, 0, 0, 0, 0, 0]) = .error .header ∧
    decode (.measurementWord [0xAA, 0xC1, 0, 0, 0, 0, 0, 0, 0, 0]) = .error .commandMarker ∧
    decode (.decoderWord [0, 0, 0, 0, 0, 0, 0]) = .error .payloadLength := by decide

/-- The table words of the HOST rows, of QUERY (first byte lowest) and of a row without a word. -/
theorem test_tableWords :
    decodeTableWord 8 0 = some .read ∧ decodeTableWord 8 2 = some .sleep ∧ decodeTableWord 8 7 = some .reservedOpsel111 ∧
    decodeTableWord 152 0xAB02FFFF00000000000000000000000004B4AA = some .query ∧ decodeTableWord 0 0 = none := by decide

/-- The codes of R57. -/
theorem test_codes :
    [OpResult.ok, .nok, .fault].map resultCode = [0b00, 0b01, 0b10] ∧
    [PacketStatus.empty, .ok, .nok].map statusCode = [0b00, 0b01, 0b10] := by decide

/-! ## The checksum unit -/

/-- V-K0. -/
theorem test_sum8_empty : next? State.returned (exec (.sum8 []) State.reset) = some (.byte 0x00) := by decide
/-- R70's worked example. -/
theorem test_sum8_wraps :
    next? State.returned (exec (.sum8 [0xB0, 0x04, 0xC2, 0x01, 0x12, 0x34]) State.reset) = some (.byte 0xBD) := by decide
/-- V-K13: the sum wraps to zero. -/
theorem test_csumc_wraps : next? State.returned (exec (.csumc 0x01 0x01 0x00) State.reset) = some (.byte 0x00) := by decide
/-- V-K14. -/
theorem test_csumc_largest : next? State.returned (exec (.csumc 0xFF 0xFF 0xFF) State.reset) = some (.byte 0xFB) := by decide
/-- V-K7: six times 255. -/
theorem test_csumm_largest :
    next? State.returned (exec (.csumm 0xFF 0xFF 0xFF 0xFF 0xFF 0xFF) State.reset) = some (.byte 0xFA) := by decide
/-- V-K2 and V-K4: a right frame, and one whose tail alone is wrong. -/
theorem test_check_good : next? State.returned (exec (.check g) State.reset) = some (.verdict .ok) := by decide
theorem test_check_badTail :
    next? State.returned (exec (.check { g with tail := 0xAA }) State.reset) = some (.verdict .nok) := by decide

/-! ## The encoder -/

/-- V-B9: marker values as operands are not escaped. -/
theorem test_build_markers : next? State.returned (exec (.build 0xAA 0xAB 0xC0) State.reset) = some (.frame
    [0xAA, 0xB4, 0xAA, 0xAB, 0xC0, 0, 0, 0, 0, 0, 0, 0, 0, 0, 0, 0xFF, 0xFF, 0x13, 0xAB]) := by decide
/-- V-B1 to V-B4. -/
theorem test_query : next? State.returned (exec .query State.reset) = some (.frame
    [0xAA, 0xB4, 0x04, 0, 0, 0, 0, 0, 0, 0, 0, 0, 0, 0, 0, 0xFF, 0xFF, 0x02, 0xAB]) := by decide
theorem test_setMode : next? State.returned (exec .setMode State.reset) = some (.frame
    [0xAA, 0xB4, 0x02, 1, 1, 0, 0, 0, 0, 0, 0, 0, 0, 0, 0, 0xFF, 0xFF, 0x02, 0xAB]) := by decide
theorem test_wakeF : next? State.returned (exec .wakeF State.reset) = some (.frame
    [0xAA, 0xB4, 0x06, 1, 1, 0, 0, 0, 0, 0, 0, 0, 0, 0, 0, 0xFF, 0xFF, 0x06, 0xAB]) := by decide
theorem test_sleepF : next? State.returned (exec .sleepF State.reset) = some (.frame
    [0xAA, 0xB4, 0x06, 1, 0, 0, 0, 0, 0, 0, 0, 0, 0, 0, 0, 0xFF, 0xFF, 0x05, 0xAB]) := by decide

/-! ## The scanner and the decoder -/

/-- V-D7: marker values inside the payload are data. -/
theorem test_decode_markersAsData :
    next? State.returned (exec (.decode ⟨0xAA, 0xC0, 0x01, 0x00, 0xAA, 0xC0, 0xD5, 0xAB⟩) State.reset) =
      some (.reading ⟨49322, 1, .ok, ⟨0xAA, 0xC0, 0x01, 0x00, 0xAA, 0xC0, 0xD5, 0xAB⟩⟩) := by decide
/-- V-D10: low byte first. -/
theorem test_decode_byteOrder :
    next? State.returned (exec (.decode ⟨0x01, 0x00, 0x00, 0x01, 0x00, 0x00, 0x02, 0xAB⟩) State.reset) =
      some (.reading ⟨1, 256, .ok, ⟨0x01, 0x00, 0x00, 0x01, 0x00, 0x00, 0x02, 0xAB⟩⟩) := by decide
/-- V-S4 with the budget of P6: `AA AA C0` is no frame. -/
theorem test_scan_masked :
    next? (fun t => (t.returned, t.scCnt)) (exec .scan (start 12 (bytesThenQuiet (0xAA :: f) 2) [])) =
      some (.scan .notFound, 12) := by decide
/-- V-S9' and V-S9: the two budget settings. -/
theorem test_scan_settings :
    next? (fun t => (t.returned, t.scCnt))
        (exec .scan { start 3 (bytesThenQuiet (0x00 :: 0x00 :: f) 0) [] with cmdReadCounts := false }) =
      some (.scan (.found gReading), 3) ∧
    next? (fun t => (t.returned, t.scCnt)) (exec .scan (start 3 (bytesThenQuiet (0x00 :: 0x00 :: f) 0) [])) =
      some (.scan .notFound, 3) := by decide
/-- R103: a no-data answer in phase CMD forgets the header (D4) and is charged (D5). -/
theorem test_scanStep_noData :
    next? (fun t => (t.scPhase, t.scCnt))
      (exec .scanStep { start 12 [.answer (.data [])] [] with scPhase := .cmd, scCnt := 1 }) = some (.hunt, 2) := by decide
/-- V-S24: a failing payload read is a fault, not a decode failure. -/
theorem test_scanStep_payloadFails :
    next? State.returned (exec .scanStep { start 12 [.answer .fail] [] with scPhase := .payload, scCnt := 2 }) =
      some (.scan .transportFault) := by decide

/-! ## The sequencer -/

/-- V-R1. -/
theorem test_read_good :
    next? (fun t => (t.rdPm25, t.rdPm10, t.rdStatus, t.rdRaw)) (exec .read (start 512 (bytesThenQuiet f 0) [.answer .ok])) =
      some (some 1200, some 450, .ok, some g) := by decide
/-- V-R3 from reset: OK, and the packet status says NOK. -/
theorem test_read_badChecksum :
    next? (fun t => (t.returned, t.rdStatus, t.drvState))
      (exec .read (start 512 (bytesThenQuiet [0xAA, 0xC0, 0xB0, 0x04, 0xC2, 0x01, 0x12, 0x34, 0x00, 0xAB] 0) [.answer .ok])) =
      some (.code .ok, .nok, .idle) := by decide
/-- V-R8. -/
theorem test_wake :
    next? (fun t => (t.returned, t.tx.log)) (exec .wake (start 512 [] [.answer .ok])) =
      some (.code .ok, [setModeFrame, [0xAA, 0xB4, 0x06, 1, 1, 0, 0, 0, 0, 0, 0, 0, 0, 0, 0, 0xFF, 0xFF, 0x06, 0xAB]]) := by
  decide
/-- V-R10. -/
theorem test_sleep_writeFails :
    next? (fun t => (t.returned, t.tx.log)) (exec .sleep (start 512 [] [.answer .fail])) =
      some (.code .fault, [setModeFrame]) := by decide
/-- V-R7: 120.0 and 45.0. -/
theorem test_getPm25 :
    next? State.returned (exec .getPm25 { State.reset with rdPm25 := some 1200 }) =
      some (.concentration (some ⟨120, 0⟩)) := by decide
theorem test_getPm10 :
    next? State.returned (exec .getPm10 { State.reset with rdPm10 := some 65535 }) =
      some (.concentration (some ⟨6553, 5⟩)) := by decide
/-- V-R6. -/
theorem test_getStatus_reset : next? State.returned (exec .getStatus State.reset) = some (.status .empty) := by decide
theorem test_getRaw_reset : next? State.returned (exec .getRaw State.reset) = some (.raw none) := by decide
/-- R60. -/
theorem test_reserved : exec .reservedOpsel111 State.reset = .refused .reservedSelectCode := rfl
/-- P5, steps 1 and 2. -/
theorem test_reset_bootFails :
    next? (fun t => (t.returned, t.bootFault, t.tx.log)) (exec (.reset 512) (start 16 [] [.answer .fail])) =
      some (.code .fault, true, []) := by decide
theorem test_read_refusedAfterBootFault :
    exec .read { State.reset with bootFault := true } = .refused .bootWriteFailed := rfl

/-- The first step after reset runs the word put there. -/
theorem test_step_firstWord : step (State.reset.withFetchWord 8 5) = exec .getStatus State.reset := rfl

/-! ## Witnesses: a state and operands that meet the hypotheses of each statement -/

/-- A host whose next operation is READ. -/
theorem witness_step_calls : ∃ s : State, ∃ r later i, s.calls = r :: later ∧ decode r = .ok i ∧ WellFormed i :=
  ⟨{ State.reset with calls := [.select 0b000] }, .select 0b000, [], .read, rfl, rfl, rfl⟩
theorem witness_step_quiet : State.reset.calls = [] := rfl
theorem witness_step_unreadable : ∃ s : State, ∃ r later e, s.calls = r :: later ∧ decode r = .error e :=
  ⟨{ State.reset with calls := [.decoderWord []] }, .decoderWord [], [], .payloadLength, rfl, rfl⟩

theorem witness_decode_measurement : decode (.measurementWord f) = .ok .scan := by decide
theorem witness_decode_other : decode (.select 0b110) = .ok .getRaw ∧ ∀ bs, Request.select 0b110 ≠ .measurementWord bs :=
  ⟨rfl, fun _ h => by cases h⟩

/-- The four listed forms of an RX stream, the data ones at the boundary: as many bytes as asked for, and one more. -/
theorem witness_rx_fits : rxRead 8 ⟨[.answer (.data (payloadBytes g))], 0⟩ = (.answer (.data (payloadBytes g)), ⟨[], 1⟩) := by
  decide
theorem witness_rx_longer :
    rxRead 1 ⟨[.answer (.data [0xAA, 0xC0])], 0⟩ = (.answer (.data [0xAA]), ⟨[.answer (.data [0xC0])], 1⟩) := by decide
theorem witness_rx_fails : rxRead 1 ⟨[.answer .fail], 0⟩ = (.answer .fail, ⟨[], 1⟩) := by decide
theorem witness_rx_never : rxRead 1 ⟨[.never], 0⟩ = (.never, ⟨[], 1⟩) := by decide

/-- A usable state whose next `TxWrite` meets each reply: for the statements on writes, WAKE, SLEEP and RESET. -/
theorem witness_tx_ok : (start 512 [] [.answer .ok]).drvState = .idle ∧ (start 512 [] [.answer .ok]).bootFault = false ∧
    (start 512 [] [.answer .ok]).cmdReadCounts = true ∧ nextTxReply (start 512 [] [.answer .ok]).tx = .answer .ok := by decide
theorem witness_tx_fail : (start 512 [] [.answer .fail]).drvState = .idle ∧ (start 512 [] [.answer .fail]).bootFault = false ∧
    nextTxReply (start 512 [] [.answer .fail]).tx = .answer .fail := by decide
theorem witness_tx_never : (start 512 [] [.never]).drvState = .idle ∧ (start 512 [] [.never]).bootFault = false ∧
    nextTxReply (start 512 [] [.never]).tx = .never := by decide

theorem witness_sum8_perm : [0x01, 0xFF].Perm [(0xFF : Byte), 0x01] := by decide
theorem witness_singleByteChange :
    payloadBytes { g with checksum := 0x00 } = (payloadBytes g).set 6 0x00 ∧ { g with checksum := 0x00 } ≠ g ∧
      exec (.check g) State.reset = .next { State.reset with returned := .verdict .ok } :=
  ⟨rfl, by decide, by simp [exec, execCheck, give, show verdictOf g = .ok by decide]⟩
/-- V-K8: +1 and -1 on two data bytes. -/
theorem witness_cancelling :
    let q : Payload := { g with pm25Lo := 0xB1, pm25Hi := 0x03 }
    q.tail = g.tail ∧ q.pm25Lo + q.pm25Hi + q.pm10Lo + q.pm10Hi + q.id1 + q.id2 - q.checksum =
      g.pm25Lo + g.pm25Hi + g.pm10Lo + g.pm10Hi + g.id1 + g.id2 - g.checksum := by decide
/-- V-K9: two data bytes swapped. -/
theorem witness_reordered :
    let q : Payload := { g with pm25Lo := 0x04, pm25Hi := 0xB0 }
    q.tail = g.tail ∧ q.checksum = g.checksum ∧ [q.pm25Lo, q.pm25Hi, q.pm10Lo, q.pm10Hi, q.id1, q.id2].Perm
      [g.pm25Lo, g.pm25Hi, g.pm10Lo, g.pm10Hi, g.id1, g.id2] := by decide

/-- A scanner state with one unit of the budget left (12 of 12 is the boundary). -/
def atPhase (ph : ScPhase) (cnt : Nat) (a : RxAnswer) : State :=
  { start 12 [.answer a] [] with scPhase := ph, scCnt := cnt }

/-- What the rows of R103 ask of a state in phase `ph` whose next read answers `a`. -/
abbrev RowHolds (s : State) (ph : ScPhase) (n : Nat) (a : RxAnswer) : Prop :=
  s.scPhase = ph ∧ (s.cmdReadCounts = true → s.scCnt ≠ s.maxScan) ∧ rxRead n s.rx = (.answer a, ⟨[], 1⟩)

/-- The rows of ScanStepMarkerRows, each at the last unit of the budget. -/
theorem witness_row_header : RowHolds (atPhase .hunt 11 (.data [0xAA])) .hunt 1 (.data [0xAA]) ∧
    (atPhase .hunt 11 (.data [0xAA])).scCnt ≠ (atPhase .hunt 11 (.data [0xAA])).maxScan := by decide
theorem witness_row_hunt_other : (0xAB : Byte) ≠ 0xAA ∧ RowHolds (atPhase .hunt 11 (.data [0xAB])) .hunt 1 (.data [0xAB]) ∧
    (atPhase .hunt 11 (.data [0xAB])).scCnt ≠ (atPhase .hunt 11 (.data [0xAB])).maxScan := by decide
theorem witness_row_hunt_noData : RowHolds (atPhase .hunt 11 (.data [])) .hunt 1 (.data []) ∧
    (atPhase .hunt 11 (.data [])).scCnt ≠ (atPhase .hunt 11 (.data [])).maxScan := by decide
theorem witness_row_marker : RowHolds (atPhase .cmd 11 (.data [0xC0])) .cmd 1 (.data [0xC0]) := by decide
/-- With CMD_READ_COUNTS false the read in CMD is made with the budget used up (R102). -/
theorem witness_row_marker_uncharged :
    RowHolds { atPhase .cmd 12 (.data [0xC0]) with cmdReadCounts := false } .cmd 1 (.data [0xC0]) := by decide
theorem witness_row_cmd_other : (0xAA : Byte) ≠ 0xC0 ∧ RowHolds (atPhase .cmd 11 (.data [0xAA])) .cmd 1 (.data [0xAA]) := by
  decide
theorem witness_row_cmd_noData : RowHolds (atPhase .cmd 11 (.data [])) .cmd 1 (.data []) := by decide

/-- The rows of ScanStepEndRows: 8 bytes and 7 bytes are the boundary of the payload read. -/
theorem witness_row_payload :
    RowHolds (atPhase .payload 2 (.data (payloadBytes g))) .payload 8 (.data (payloadBytes g)) := by decide
theorem witness_row_short : [(1 : Byte), 2, 3, 4, 5, 6, 7].length ≤ 7 ∧
    RowHolds (atPhase .payload 2 (.data [1, 2, 3, 4, 5, 6, 7])) .payload 8 (.data [1, 2, 3, 4, 5, 6, 7]) := by decide
theorem witness_row_payload_fails : RowHolds (atPhase .payload 2 .fail) .payload 8 .fail := by decide
theorem witness_row_hunt_fails : RowHolds (atPhase .hunt 11 .fail) .hunt 1 .fail ∧
    (atPhase .hunt 11 .fail).scCnt ≠ (atPhase .hunt 11 .fail).maxScan := by decide
theorem witness_row_cmd_fails : RowHolds (atPhase .cmd 11 .fail) .cmd 1 .fail := by decide
theorem witness_row_exhausted : (atPhase .hunt 12 .fail).scPhase = .hunt ∧
    (atPhase .hunt 12 .fail).scCnt = (atPhase .hunt 12 .fail).maxScan ∧
    (atPhase .cmd 12 .fail).scPhase = .cmd ∧ (atPhase .cmd 12 .fail).cmdReadCounts = true ∧
    (atPhase .cmd 12 .fail).scCnt = (atPhase .cmd 12 .fail).maxScan := by decide

theorem witness_answers : Instr.read ∈ hostOperations ∧ (start 12 [.answer (.data [])] [.answer .ok]).drvState = .idle ∧
    (start 12 [.answer (.data [])] [.answer .ok]).bootFault = false ∧ Answers (start 12 [.answer (.data [])] [.answer .ok]) :=
  ⟨by decide, rfl, rfl, by simp [start], by simp [start]⟩
theorem witness_zeroBudget : (start 0 [] []).maxScan = 0 := rfl

/-- V-S19 and V-S19': the frame F with a budget of one. -/
theorem witness_budgetOfOne :
    (start 1 (bytesThenQuiet f 0) []).maxScan = 1 ∧
    rxRead 1 (start 1 (bytesThenQuiet f 0) []).rx = (.answer (.data [0xAA]), ⟨[.answer (.data (f.drop 1))], 1⟩) ∧
    rxRead 1 ⟨[.answer (.data (f.drop 1))], 1⟩ = (.answer (.data [0xC0]), ⟨[.answer (.data (f.drop 2))], 2⟩) ∧
    rxRead 8 ⟨[.answer (.data (f.drop 2))], 2⟩ = (.answer (.data (payloadBytes g)), ⟨[], 3⟩) := by decide

/-- The noise `AA 00` of V-S5 is harmless, and so is the empty noise. -/
theorem witness_harmless : HarmlessNoise [0xAA, 0x00] := by
  constructor
  · intro before after h
    match before, h with
    | [], h => simp [Config.cmdIdIn] at h
    | [_], h => simp [Config.cmdIdIn] at h
    | _ :: _ :: _, h => simp at h
  · decide

/-- The noise that ends in an odd run (V-S16) is not. -/
theorem witness_notHarmless : ¬HarmlessNoise [0x00, 0xAA] := fun h => absurd h.2 (by decide)

/-- `AA 00` and F, the budget at its boundary k + 2 = 4 (V-S5): the hypotheses of the statements on harmless noise. -/
theorem witness_noiseThenFrame :
    let s := start 4 (bytesThenQuiet (0xAA :: 0x00 :: f) 0) [.answer .ok]
    s.drvState = .idle ∧ s.bootFault = false ∧ nextTxReply s.tx = .answer .ok ∧ HarmlessNoise [0xAA, 0x00] ∧
    [(0xAA : Byte), 0x00].length + 2 ≤ s.maxScan ∧ OneByOne ([0xAA, 0x00] ++ [0xAA, 0xC0]) s.rx ⟨[.answer (.data (payloadBytes g))], 4⟩ ∧
    rxRead 8 ⟨[.answer (.data (payloadBytes g))], 4⟩ = (.answer (.data (payloadBytes g)), ⟨[], 5⟩) :=
  ⟨rfl, rfl, rfl, witness_harmless, by decide, ⟨_, rfl, _, rfl, _, rfl, _, rfl, rfl⟩, rfl⟩

/-- The same with a payload of 7 bytes. -/
theorem witness_shortPayload :
    let s := start 4 (bytesThenQuiet [0xAA, 0x00, 0xAA, 0xC0, 1, 2, 3, 4, 5, 6, 7] 0) [.answer .ok]
    s.drvState = .idle ∧ s.bootFault = false ∧ nextTxReply s.tx = .answer .ok ∧ HarmlessNoise [0xAA, 0x00] ∧
    [(0xAA : Byte), 0x00].length + 2 ≤ s.maxScan ∧ OneByOne ([0xAA, 0x00] ++ [0xAA, 0xC0]) s.rx ⟨[.answer (.data [1, 2, 3, 4, 5, 6, 7])], 4⟩ ∧
    rxRead 8 ⟨[.answer (.data [1, 2, 3, 4, 5, 6, 7])], 4⟩ = (.answer (.data [1, 2, 3, 4, 5, 6, 7]), ⟨[], 5⟩) :=
  ⟨rfl, rfl, rfl, witness_harmless, by decide, ⟨_, rfl, _, rfl, _, rfl, _, rfl, rfl⟩, rfl⟩

theorem witness_hunting : [(0xAA : Byte), 0x00].length ≤ (start 2 (bytesThenQuiet [0xAA, 0x00] 0) []).maxScan ∧
    OneByOne [0xAA, 0x00] (start 2 (bytesThenQuiet [0xAA, 0x00] 0) []).rx ⟨[], 2⟩ :=
  ⟨by decide, _, rfl, _, rfl, rfl⟩

/-- A stream of as many bytes as the budget, with no `AA C0` in it. -/
theorem witness_noMarkers :
    let s := start 2 (bytesThenQuiet [0xAA, 0x00] 0) [.answer .ok]
    s.drvState = .idle ∧ s.bootFault = false ∧ nextTxReply s.tx = .answer .ok ∧
      s.cmdReadCounts = true ∧ [(0xAA : Byte), 0x00].length = s.maxScan ∧ NoMarkers [0xAA, 0x00] ∧
      OneByOne [0xAA, 0x00] s.rx ⟨[], 2⟩ := by
  refine ⟨rfl, rfl, rfl, rfl, rfl, ?_, _, rfl, _, rfl, rfl⟩
  intro before after h
  match before, h with
  | [], h => simp [Config.cmdIdIn] at h
  | [_], h => simp at h
  | _ :: _ :: _, h => simp at h

/-- What ReadByScanResult and UnansweredCallLeavesBusy ask of a state `s` whose scan leaves a state with that result. -/
def ReadMeets (s : State) (v : Returned) : Prop :=
  s.drvState = .idle ∧ s.bootFault = false ∧ nextTxReply s.tx = .answer .ok ∧
    ∃ t, StepsToResult { s with scPhase := .hunt, scCnt := 0 } t ∧ t.returned = v

/-- One witness for each way a scan ends; F, and F cut short after 7 payload bytes, take three SCANSTEPs. -/
theorem witness_read_found : ReadMeets (start 2 (bytesThenQuiet f 0) [.answer .ok]) (.scan (.found gReading)) :=
  ⟨rfl, rfl, rfl, _, .more rfl rfl (.more rfl rfl (.last rfl (by intro ph h; cases h))), by decide⟩
theorem witness_read_decodeFailure :
    ReadMeets (start 2 (bytesThenQuiet (f.take 9) 0) [.answer .ok]) (.scan .decodeFailure) :=
  ⟨rfl, rfl, rfl, _, .more rfl rfl (.more rfl rfl (.last rfl (by intro ph h; cases h))), by decide⟩
theorem witness_read_notFound : ReadMeets (start 0 [] [.answer .ok]) (.scan .notFound) :=
  ⟨rfl, rfl, rfl, _, .last rfl (by intro ph h; cases h), rfl⟩
theorem witness_read_fails : ReadMeets (start 1 [.answer .fail] [.answer .ok]) (.scan .transportFault) :=
  ⟨rfl, rfl, rfl, _, .last rfl (by intro ph h; cases h), rfl⟩
theorem witness_read_blocked : ReadMeets (start 1 [.never] [.answer .ok]) .pending :=
  ⟨rfl, rfl, rfl, _, .last rfl (by intro ph h; cases h), rfl⟩

theorem witness_scan_next : ∃ s t, exec .scan s = .next t ∧ s.cmdReadCounts = true ∧ t.returned = .scan .notFound :=
  ⟨start 0 [] [], _, rfl, rfl, rfl⟩
theorem witness_scan_next_uncharged : ∃ s t, exec .scan s = .next t ∧ s.cmdReadCounts = false ∧ t.returned = .scan .notFound :=
  ⟨{ start 0 [] [] with cmdReadCounts := false }, _, rfl, rfl, rfl⟩
theorem witness_trusted : ∃ s t, exec .read s = .next t ∧ Trusted t :=
  ⟨start 2 (bytesThenQuiet f 0) [.answer .ok], _, rfl, by decide, by decide⟩

theorem witness_idle : State.reset.drvState = .idle ∧ State.reset.bootFault = false := ⟨rfl, rfl⟩
theorem witness_accessors : State.reset.rdPm25 = none ∧ State.reset.rdPm10 = none ∧
    { State.reset with rdPm25 := some 65535 }.rdPm25 = some 65535 ∧
    { State.reset with rdPm10 := some 1 }.rdPm10 = some 1 := ⟨rfl, rfl, rfl, rfl⟩
theorem witness_busy : Instr.read ∈ hostOperations ∧ { State.reset with drvState := .busy }.drvState = .busy := by decide
theorem witness_bootFault : Instr.wake ∈ hostOperations ∧ { State.reset with bootFault := true }.drvState = .idle ∧
    { State.reset with bootFault := true }.bootFault = true := by decide
/-- An operation that is no RESET answers a next state after a failed boot write: a unit operation. -/
theorem witness_bootFault_stays : ∃ s t, (∀ n, Instr.query ≠ .reset n) ∧ s.bootFault = true ∧ exec .query s = .next t :=
  ⟨{ State.reset with bootFault := true }, _, (fun _ h => by cases h), rfl, rfl⟩
theorem witness_frames : ∃ s t, (∀ n, Instr.wake ≠ .reset n) ∧ Instr.wake ∉ [Instr.scan, .scanStep, .read] ∧
    s.rdStatus ≠ .empty ∧ exec .wake s = .next t :=
  ⟨{ start 2 [] [.answer .ok] with rdStatus := .nok }, _, (fun _ h => by cases h), by decide, by decide, rfl⟩
/-- A READ that returns OK and one that returns NOK. -/
theorem witness_reading_clauses :
    (∃ s t, exec .read s = .next t ∧ t.returned = .code .ok) ∧ (∃ s t, exec .read s = .next t ∧ t.returned ≠ .code .ok) :=
  ⟨⟨start 2 (bytesThenQuiet f 0) [.answer .ok], _, rfl, by decide⟩, ⟨start 0 [] [.answer .ok], _, rfl, by decide⟩⟩

/-- A step from a state that meets the invariant: GETSTATUS, called after reset. -/
theorem witness_coherent : ∃ s t, Coherent s ∧ step s = .next t :=
  ⟨{ State.reset with calls := [.select 0b101] }, _,
    ⟨.inl ⟨rfl, rfl, rfl, rfl⟩, by decide, .inr ⟨[], rfl, by simp⟩, by simp [State.reset], by simp [State.reset]⟩, rfl⟩

end Sys2Proof.Tests
end

/-! ## The state family: what one operation can leave, and what every step keeps -/

section
namespace Sys2Proof.Machine

/-! ### The scanner: its RX stream, what it can find, and when it hangs -/

/-- A turn makes at most one call of the byte source (R91, R94). -/
theorem scanTurn_rx (s : State) : (scanTurn s).2.rx = s.rx ∨ ∃ n, (scanTurn s).2.rx = (rxRead n s.rx).2 := by
  by_cases hp : s.scPhase = .payload
  · rw [scanTurn_payload hp]
    rcases payloadTurn_cases s with ⟨rx, hr, e⟩ | ⟨rx, hr, e⟩ | ⟨bs, rx, hr, e⟩ <;>
      exact .inr ⟨8, by rw [e, hr]⟩
  · rw [scanTurn_marker hp]
    rcases markerTurn_cases s with ⟨-, -, e⟩ | ⟨-, ⟨rx, hr, e⟩ | ⟨rx, hr, e⟩ | ⟨bs, rx, hr, e⟩⟩
    · exact .inl (by rw [e])
    all_goals exact .inr ⟨1, by rw [e, hr]⟩

/-- A turn lists no hang that was not listed before. -/
theorem scanTurn_future_never {s : State} (h : Reply.never ∈ (scanTurn s).2.rx.future) : Reply.never ∈ s.rx.future := by
  rcases scanTurn_rx s with e | ⟨n, e⟩
  · rwa [e] at h
  · rw [e] at h
    exact rxRead_future_never h

/-- A turn hangs only where the list says so (log 9). -/
theorem scanTurn_blocked {s t : State} (h : scanTurn s = (.ends .blocked, t)) : Reply.never ∈ s.rx.future := by
  by_cases hp : s.scPhase = .payload
  · rw [scanTurn_payload hp] at h
    rcases payloadTurn_cases s with ⟨rx, hr, -⟩ | ⟨rx, -, e⟩ | ⟨bs, rx, -, e⟩
    · exact rxRead_never hr
    · simp [e] at h
    · rw [e] at h
      unfold payloadResult at h
      split at h <;> simp at h
  · rw [scanTurn_marker hp] at h
    rcases markerTurn_cases s with ⟨-, -, e⟩ | ⟨-, ⟨rx, hr, -⟩ | ⟨rx, -, e⟩ | ⟨bs, rx, -, e⟩⟩
    · simp [e] at h
    · exact rxRead_never hr
    all_goals simp [e] at h

/-- What a turn finds is DECODE's reading of a payload (R94, R96). -/
theorem scanTurn_found {s t : State} {rd : Reading} (h : scanTurn s = (.ends (.found rd), t)) :
    ∃ p, rd = readingOf p := by
  by_cases hp : s.scPhase = .payload
  · rw [scanTurn_payload hp] at h
    rcases payloadTurn_cases s with ⟨rx, -, e⟩ | ⟨rx, -, e⟩ | ⟨bs, rx, -, e⟩ <;> rw [e] at h
    · simp at h
    · simp at h
    · unfold payloadResult at h
      split at h
      · rename_i p _
        simp only [Prod.mk.injEq, StepResult.ends.injEq, ScanResult.found.injEq] at h
        exact ⟨p, h.1.symm⟩
      · simp at h
  · rw [scanTurn_marker hp] at h
    rcases markerTurn_cases s with ⟨-, -, e⟩ | ⟨-, ⟨rx, -, e⟩ | ⟨rx, -, e⟩ | ⟨bs, rx, -, e⟩⟩ <;> simp [e] at h

@[simp] theorem scanTurn_maxScan (s : State) : (scanTurn s).2.maxScan = s.maxScan := by
  rw [scanTurn_frame]

/-- A run of the scanner keeps the count within the budget (R21). -/
theorem ScanRuns.count {s t : State} {r : ScanResult} (h : ScanRuns s r t) (hc : s.scCnt ≤ s.maxScan) :
    t.scCnt ≤ s.maxScan := by
  induction h with
  | ends e => simpa [e] using scanTurn_count hc
  | @goesOn s s' t ph r e _ ih =>
    have hm : s'.maxScan = s.maxScan := by simpa [e] using scanTurn_maxScan s
    have hc' : s'.scCnt ≤ s.maxScan := by simpa [e] using scanTurn_count hc
    rw [hm] at ih
    exact ih hc'

/-- A run of the scanner hangs only where the list says so (log 9). -/
theorem ScanRuns.blocked {s t : State} {r : ScanResult} (h : ScanRuns s r t) (hr : r = .blocked) :
    Reply.never ∈ s.rx.future := by
  induction h with
  | ends e => exact scanTurn_blocked (hr ▸ e)
  | goesOn e _ ih => exact scanTurn_future_never (by simpa [e] using ih hr)

/-- What a run of the scanner finds is DECODE's reading of a payload (R90, R96). -/
theorem ScanRuns.found {s t : State} {r : ScanResult} (h : ScanRuns s r t) {rd : Reading} (hr : r = .found rd) :
    ∃ p, rd = readingOf p := by
  induction h with
  | ends e => exact scanTurn_found (hr ▸ e)
  | goesOn _ _ ih => exact ih hr

/-- SCAN is the unbounded loop from HUNT and count 0 (R90; log 19). -/
theorem scan_runs (s : State) : ScanRuns (scanStart s) (scan s).1 (scan s).2 :=
  scanLoop_runs _ _ (Nat.zero_le _) (by simp [turnsLeft])

/-- SCAN leaves the count within the budget, whatever it was before (R21, R90). -/
theorem scan_count (s : State) : (scan s).2.scCnt ≤ s.maxScan :=
  (scan_runs s).count (Nat.zero_le _)

/-- With no budget the first turn of a SCAN ends it, before any read (R91). -/
theorem scan_of_maxScan_zero {s : State} (h : s.maxScan = 0) : scan s = (.notFound, scanStart s) := by
  have hturn : scanTurn (scanStart s) = (.ends .notFound, scanStart s) := by
    rw [scanTurn_marker (by simp)]
    simp [markerTurn, charged, h]
  simp [scan, scanLoop, hturn]

/-! ### Host operations -/

/-- The state in which a host operation may start (R19, R152). -/
def Usable (s : State) : Prop :=
  s.drvState = .idle ∧ s.bootFault = false

theorem hostOp_busy {body : State → State} {s : State} (h : s.drvState = .busy) :
    hostOp body s = .refused .startedWhileBusy :=
  if_pos h

/-- Every operation that a select code names goes through the common start of a host operation (R19, R57). -/
theorem exec_hostOperation {i : Instr} (hi : i ∈ hostOperations) (s : State) : ∃ body, exec i s = hostOp body s := by
  simp only [hostOperations, List.mem_cons, List.not_mem_nil, or_false] at hi
  rcases hi with rfl | rfl | rfl | rfl | rfl | rfl | rfl <;> exact ⟨_, rfl⟩

/-- A host operation that may start answers a next state (R19, R118). -/
theorem exec_hostOperation_answers {i : Instr} (hi : i ∈ hostOperations) {s : State} (hu : Usable s) :
    ∃ t, exec i s = .next t := by
  obtain ⟨body, hbody⟩ := exec_hostOperation hi s
  exact ⟨_, hbody.trans (hostOp_runs hu.1 hu.2)⟩

/-- An operation that leaves the block IDLE, from an IDLE block, has only handed back its result. -/
theorem finish_of_idle {s : State} (h : s.drvState = .idle) (v : Returned) : finish v s = give v s := by
  unfold finish give
  rw [← h]

/-- A call hangs only where the list says so (log 9). -/
theorem nextTxReply_never {tx : TxStream} (h : nextTxReply tx = .never) : Reply.never ∈ tx.future := by
  unfold nextTxReply at h
  split at h
  · cases h
  · rename_i e
    simp [e, h]

/-- What a host operation that writes a frame leaves, by the reply to its write (R33, R131; log 9). -/
theorem hostOp_writeThen_next {f : List Byte} {rest : State → State} {s t : State}
    (h : hostOp (writeThen f rest) s = .next t) :
    Usable s ∧
    ((nextTxReply s.tx = .never ∧
        t = { s with drvState := .busy, tx := txAfter s.tx s.tx.log, returned := .pending }) ∨
     (nextTxReply s.tx = .answer .fail ∧ t = finish (.code .fault) { s with tx := txAfter s.tx s.tx.log }) ∨
     (nextTxReply s.tx = .answer .ok ∧
        t = rest { s with drvState := .busy, tx := txAfter s.tx (s.tx.log ++ [f]), returned := .pending })) := by
  obtain ⟨hidle, hboot, rfl⟩ := hostOp_next h
  refine ⟨⟨hidle, hboot⟩, ?_⟩
  rcases nextTxReply_cases s.tx with hr | hr | hr
  · exact .inr (.inr ⟨hr, writeThen_ok hr⟩)
  · exact .inr (.inl ⟨hr, writeThen_fail hr⟩)
  · exact .inl ⟨hr, writeThen_never hr⟩

/-- What READ leaves once its query is written: the reading of one payload and OK, or the old reading and another result, or,
where a listed read never answers, no result (R110, R111; log 9). -/
theorem readScan_cases (s : State) : ∃ ph n rx, n ≤ s.maxScan ∧
    ((∃ p, readScan s =
        storeReading (readingOf p) (finish (.code .ok) { s with scPhase := ph, scCnt := n, rx := rx })) ∨
     (∃ c, c ≠ .ok ∧ readScan s = finish (.code c) { s with scPhase := ph, scCnt := n, rx := rx }) ∨
     (Reply.never ∈ s.rx.future ∧ readScan s = { s with scPhase := ph, scCnt := n, rx := rx })) := by
  refine ⟨(scan s).2.scPhase, (scan s).2.scCnt, (scan s).2.rx, scan_count s, ?_⟩
  rw [← scan_frame s]
  unfold readScan
  cases hr : (scan s).1 with
  | found rd =>
    obtain ⟨p, rfl⟩ := (scan_runs s).found hr
    exact .inl ⟨p, rfl⟩
  | notFound => exact .inr (.inl ⟨.nok, by decide, rfl⟩)
  | decodeFailure => exact .inr (.inl ⟨.nok, by decide, rfl⟩)
  | transportFault => exact .inr (.inl ⟨.fault, by decide, rfl⟩)
  | blocked => exact .inr (.inr ⟨(scan_runs s).blocked hr, rfl⟩)

/-! ### What an operation can leave, said once -/

/-- The operations that only hand back a result, where they answer: the encoder, the checksum unit, DECODE, the accessors. OPSEL 111
never answers (R60), so it counts among them for nothing. -/
def onlyReturns : Instr → Bool
  | .scan | .scanStep | .read | .wake | .sleep | .reset _ => false
  | _ => true

/-- Everything that an operation can leave when it answers a next state. -/
inductive Effect (s : State) : Instr → State → Prop where
  | returns {i : Instr} {v : Returned} : onlyReturns i = true → v ≠ .pending → Effect s i (give v s)
  | scans {i : Instr} {ph : ScPhase} {n : Nat} {rx : RxStream} {v : Returned} :
      i ∈ [Instr.scan, .scanStep] → (s.scCnt ≤ s.maxScan → n ≤ s.maxScan) →
      Effect s i { s with scPhase := ph, scCnt := n, rx := rx, returned := v }
  | writeUnanswered {i : Instr} :
      i ∈ [Instr.read, .wake, .sleep] → Usable s → nextTxReply s.tx = .never →
      Effect s i { s with drvState := .busy, tx := txAfter s.tx s.tx.log, returned := .pending }
  | writeFails {i : Instr} :
      i ∈ [Instr.read, .wake, .sleep] → Usable s → nextTxReply s.tx = .answer .fail →
      Effect s i (finish (.code .fault) { s with tx := txAfter s.tx s.tx.log })
  | writes {i : Instr} {f : List Byte} :
      (i, f) ∈ [(Instr.wake, wakeFrame), (.sleep, sleepFrame)] → Usable s → nextTxReply s.tx = .answer .ok →
      Effect s i (finish (.code .ok) { s with tx := txAfter s.tx (s.tx.log ++ [f]) })
  | readFinds {ph : ScPhase} {n : Nat} {rx : RxStream} {p : Payload} :
      Usable s → nextTxReply s.tx = .answer .ok → n ≤ s.maxScan →
      Effect s .read (storeReading (readingOf p) (finish (.code .ok)
        { s with scPhase := ph, scCnt := n, rx := rx, tx := txAfter s.tx (s.tx.log ++ [queryFrame]) }))
  | readFindsNothing {ph : ScPhase} {n : Nat} {rx : RxStream} {c : OpResult} :
      Usable s → nextTxReply s.tx = .answer .ok → n ≤ s.maxScan → c ≠ .ok →
      Effect s .read (finish (.code c)
        { s with scPhase := ph, scCnt := n, rx := rx, tx := txAfter s.tx (s.tx.log ++ [queryFrame]) })
  | readUnanswered {ph : ScPhase} {n : Nat} {rx : RxStream} :
      Usable s → nextTxReply s.tx = .answer .ok → n ≤ s.maxScan → Reply.never ∈ s.rx.future →
      Effect s .read
        { s with drvState := .busy, scPhase := ph, scCnt := n, rx := rx,
                 tx := txAfter s.tx (s.tx.log ++ [queryFrame]), returned := .pending }
  | resets {n : Nat} : Effect s (.reset n) (bootWrite (freshInstance n s))

theorem Effect.of_give {i : Instr} {s t : State} {v : Returned} (hi : onlyReturns i = true) (hv : v ≠ .pending)
    (h : (.next (give v s) : Out) = .next t) : Effect s i t := by
  cases h
  exact .returns hi hv

theorem Effect.of_accessor {i : Instr} {s t : State} {v : Returned} (hi : onlyReturns i = true) (hv : v ≠ .pending)
    (h : hostOp (finish v) s = .next t) : Effect s i t := by
  obtain ⟨hidle, -, rfl⟩ := hostOp_next h
  have hgive : finish v { s with drvState := .busy, returned := .pending } = give v s := finish_of_idle hidle v
  rw [hgive]
  exact .returns hi hv

theorem Effect.of_wakeOrSleep {i : Instr} {f : List Byte} {s t : State}
    (hi : (i, f) ∈ [(Instr.wake, wakeFrame), (.sleep, sleepFrame)])
    (h : hostOp (writeThen f (finish (.code .ok))) s = .next t) : Effect s i t := by
  have hw : i ∈ [Instr.read, .wake, .sleep] := by
    simp only [List.mem_cons, Prod.mk.injEq, List.not_mem_nil, or_false] at hi ⊢
    exact .inr (hi.imp And.left And.left)
  obtain ⟨hu, ⟨hr, rfl⟩ | ⟨hr, rfl⟩ | ⟨hr, rfl⟩⟩ := hostOp_writeThen_next h
  · exact .writeUnanswered hw hu hr
  · exact .writeFails hw hu hr
  · exact .writes hi hu hr

theorem Effect.of_read {s t : State} (h : exec .read s = .next t) : Effect s .read t := by
  obtain ⟨hu, ⟨hr, rfl⟩ | ⟨hr, rfl⟩ | ⟨hr, rfl⟩⟩ := hostOp_writeThen_next h
  · exact .writeUnanswered (by simp) hu hr
  · exact .writeFails (by simp) hu hr
  · obtain ⟨ph, n, rx, hn, ⟨p, e⟩ | ⟨c, hc, e⟩ | ⟨hnever, e⟩⟩ := readScan_cases
      { s with drvState := .busy, tx := txAfter s.tx (s.tx.log ++ [queryFrame]), returned := .pending }
    all_goals rw [e]
    · exact .readFinds hu hr hn
    · exact .readFindsNothing hu hr hn hc
    · exact .readUnanswered hu hr hn hnever

theorem Effect.of_scan {s t : State} (h : exec .scan s = .next t) : Effect s .scan t := by
  obtain rfl := Host.Outcome.next.inj h
  rw [scan_frame]
  exact .scans (by simp) fun _ => scan_count s

theorem Effect.of_scanStep {s t : State} (h : exec .scanStep s = .next t) : Effect s .scanStep t := by
  obtain rfl := Host.Outcome.next.inj h
  rw [scanTurn_frame]
  exact .scans (by simp) scanTurn_count

/-- The inversion of `exec`: an operation that answers a next state has one of the effects. -/
theorem exec_effect {i : Instr} {s t : State} (h : exec i s = .next t) : Effect s i t := by
  cases i with
  | build c m p => exact .of_give rfl (by simp) h
  | query => exact .of_give rfl (by simp) h
  | setMode => exact .of_give rfl (by simp) h
  | wakeF => exact .of_give rfl (by simp) h
  | sleepF => exact .of_give rfl (by simp) h
  | scan => exact .of_scan h
  | decode p => exact .of_give rfl (by simp) h
  | check p => exact .of_give rfl (by simp) h
  | read => exact .of_read h
  | wake => exact .of_wakeOrSleep (by simp) h
  | sleep => exact .of_wakeOrSleep (by simp) h
  | getPm25 => exact .of_accessor rfl (by simp) h
  | getPm10 => exact .of_accessor rfl (by simp) h
  | getStatus => exact .of_accessor rfl (by simp) h
  | getRaw => exact .of_accessor rfl (by simp) h
  | reservedOpsel111 => cases h
  | reset n =>
    obtain rfl := Host.Outcome.next.inj h
    exact .resets
  | sum8 bs => exact .of_give rfl (by simp) h
  | csumc c m p => exact .of_give rfl (by simp) h
  | csumm d0 d1 d2 d3 d4 d5 => exact .of_give rfl (by simp) h
  | scanStep => exact .of_scanStep h

/-! ### The reading -/

theorem readingOfFrame_storeReading (p : Payload) (s : State) : ReadingOfFrame p (storeReading (readingOf p) s) :=
  ⟨rfl, rfl, rfl, rfl⟩

/-- R15: an operation that is no RESET keeps the reading, or it is a READ that returned OK with the reading of one payload. -/
theorem Effect.reading {i : Instr} {s t : State} (h : Effect s i t) (hreset : ∀ n, i ≠ .reset n) :
    (SameReading s t ∧ (i = .read → t.returned ≠ .code .ok)) ∨
    (i = .read ∧ t.returned = .code .ok ∧ ∃ p, ReadingOfFrame p t) := by
  cases h with
  | returns hi _ =>
    refine .inl ⟨⟨rfl, rfl, rfl, rfl⟩, ?_⟩
    rintro rfl
    cases hi
  | scans hi _ =>
    refine .inl ⟨⟨rfl, rfl, rfl, rfl⟩, ?_⟩
    rintro rfl
    simp at hi
  | writeUnanswered => exact .inl ⟨⟨rfl, rfl, rfl, rfl⟩, by simp⟩
  | writeFails => exact .inl ⟨⟨rfl, rfl, rfl, rfl⟩, by simp⟩
  | writes hi _ _ =>
    refine .inl ⟨⟨rfl, rfl, rfl, rfl⟩, ?_⟩
    rintro rfl
    simp at hi
  | readFinds => exact .inr ⟨rfl, rfl, _, readingOfFrame_storeReading _ _⟩
  | readFindsNothing _ _ _ hc => exact .inl ⟨⟨rfl, rfl, rfl, rfl⟩, by simpa using hc⟩
  | readUnanswered => exact .inl ⟨⟨rfl, rfl, rfl, rfl⟩, by simp⟩
  | resets => exact absurd rfl (hreset _)

theorem ReadingOfFrame.status_ne_empty {p : Payload} {s : State} (h : ReadingOfFrame p s) : s.rdStatus ≠ .empty := by
  obtain ⟨-, -, hstatus, -⟩ := h
  rw [hstatus]
  cases verdictOf p <;> decide

/-! ### The parameters -/

/-- The boot write touches DRV_STATE, BOOT_FAULT, the TX stream and the result only (R150 to R152). -/
theorem bootWrite_frame (s : State) :
    bootWrite s = { s with drvState := (bootWrite s).drvState, bootFault := (bootWrite s).bootFault,
                           tx := (bootWrite s).tx, returned := (bootWrite s).returned } := by
  rcases nextTxReply_cases s.tx with h | h | h
  · rw [bootWrite_ok h]
  · rw [bootWrite_fail h]
  · rw [bootWrite_never h]

/-- CMD_READ_COUNTS and the host's list are kept by every operation, MAXSCAN and BOOT_FAULT by all but RESET. -/
theorem Effect.parameters {i : Instr} {s t : State} (h : Effect s i t) :
    t.cmdReadCounts = s.cmdReadCounts ∧ t.calls = s.calls ∧
    ((∀ n, i ≠ .reset n) → t.maxScan = s.maxScan ∧ t.bootFault = s.bootFault) := by
  cases h with
  | resets =>
    rw [bootWrite_frame]
    exact ⟨rfl, rfl, fun hreset => absurd rfl (hreset _)⟩
  | _ => exact ⟨rfl, rfl, fun _ => ⟨rfl, rfl⟩⟩

/-! ### The invariant -/

/-- What keeps the invariant while the reading stays as it is: the count stays within the budget, the log gains at most one
frame of a host operation and only after the boot frame, and the block does not come to be IDLE or booted. -/
theorem Coherent.of_sameReading {s t : State} (hs : Coherent s) (hreading : SameReading s t)
    (hcount : t.scCnt ≤ t.maxScan)
    (hlog : t.tx.log = s.tx.log ∨ s.tx.log ≠ [] ∧ ∃ f ∈ hostFrames, t.tx.log = s.tx.log ++ [f])
    (hboot : t.bootFault = s.bootFault) (hidle : t.drvState = .idle → s.drvState = .idle) : Coherent t := by
  obtain ⟨h25, h10, hst, hraw⟩ := hreading
  have hno : NoReading s → NoReading t := by simp [NoReading, h25, h10, hst, hraw]
  have hframe : ∀ p, ReadingOfFrame p s → ReadingOfFrame p t := by simp [ReadingOfFrame, h25, h10, hst, hraw]
  refine ⟨hs.reading.imp hno fun ⟨p, hp⟩ => ⟨p, hframe p hp⟩, hcount, ?_, ?_, ?_⟩
  · rcases hlog with e | ⟨hne, f, hf, e⟩
    · rw [e]
      exact hs.log
    · obtain ⟨fs, hfs, hall⟩ := hs.log.resolve_left hne
      refine .inr ⟨fs ++ [f], by simp [e, hfs], fun g hg => ?_⟩
      rcases List.mem_append.mp hg with hg | hg
      · exact hall g hg
      · rwa [List.mem_singleton.mp hg]
  · intro hd hb
    rcases hlog with e | ⟨-, f, -, e⟩
    · rw [e]
      exact hs.booted (hidle hd) (hboot ▸ hb)
    · simp [e]
  · intro hb
    obtain ⟨hempty, hnone⟩ := hs.notBooted (hboot ▸ hb)
    rcases hlog with e | ⟨hne, -⟩
    · exact ⟨e.trans hempty, hno hnone⟩
    · exact absurd hempty hne

/-- A reading stored by a booted block keeps the invariant (R15). -/
theorem Coherent.storeReading {s : State} (hs : Coherent s) (hboot : s.bootFault = false) (p : Payload) :
    Coherent (storeReading (readingOf p) s) where
  reading := .inr ⟨p, readingOfFrame_storeReading p s⟩
  count := hs.count
  log := hs.log
  booted := hs.booted
  notBooted hb := by simp [hboot] at hb

/-- RESET establishes the invariant from every state, whatever becomes of its boot write (R150 to R152; log 9, log 14). -/
theorem coherent_reset (n : Nat) (s : State) : Coherent (bootWrite (freshInstance n s)) := by
  have hno : NoReading (freshInstance n s) := ⟨rfl, rfl, rfl, rfl⟩
  rcases nextTxReply_cases (freshInstance n s).tx with h | h | h
  · rw [bootWrite_ok h]
    exact ⟨.inl hno, Nat.zero_le _, .inr ⟨[], by simp⟩, by simp, by simp⟩
  · rw [bootWrite_fail h]
    exact ⟨.inl hno, Nat.zero_le _, .inl rfl, by simp, fun _ => ⟨rfl, hno⟩⟩
  · rw [bootWrite_never h]
    exact ⟨.inl hno, Nat.zero_le _, .inl rfl, by simp, by simp⟩

/-- Every operation keeps the invariant. -/
theorem Coherent.effect {i : Instr} {s t : State} (hs : Coherent s) (h : Effect s i t) : Coherent t := by
  have hlog (hu : Usable s) {f : List Byte} (hf : f ∈ hostFrames) :
      s.tx.log ≠ [] ∧ ∃ g ∈ hostFrames, s.tx.log ++ [f] = s.tx.log ++ [g] :=
    ⟨hs.booted hu.1 hu.2, f, hf, rfl⟩
  have hquery : queryFrame ∈ hostFrames := by simp [hostFrames]
  cases h with
  | returns => exact hs.of_sameReading ⟨rfl, rfl, rfl, rfl⟩ hs.count (.inl rfl) rfl id
  | scans _ hn => exact hs.of_sameReading ⟨rfl, rfl, rfl, rfl⟩ (hn hs.count) (.inl rfl) rfl id
  | writeUnanswered _ hu _ => exact hs.of_sameReading ⟨rfl, rfl, rfl, rfl⟩ hs.count (.inl rfl) rfl fun _ => hu.1
  | writeFails _ hu _ => exact hs.of_sameReading ⟨rfl, rfl, rfl, rfl⟩ hs.count (.inl rfl) rfl fun _ => hu.1
  | @writes i f hi hu _ =>
    have hf : f ∈ hostFrames := by
      simp only [List.mem_cons, Prod.mk.injEq, List.not_mem_nil, or_false] at hi
      rcases hi with ⟨-, rfl⟩ | ⟨-, rfl⟩ <;> simp [hostFrames]
    exact hs.of_sameReading ⟨rfl, rfl, rfl, rfl⟩ hs.count (.inr (hlog hu hf)) rfl fun _ => hu.1
  | readFinds hu _ hn =>
    refine Coherent.storeReading ?_ ?_ _
    · exact hs.of_sameReading ⟨rfl, rfl, rfl, rfl⟩ hn (.inr (hlog hu hquery)) rfl fun _ => hu.1
    · exact hu.2
  | readFindsNothing hu _ hn _ =>
    exact hs.of_sameReading ⟨rfl, rfl, rfl, rfl⟩ hn (.inr (hlog hu hquery)) rfl fun _ => hu.1
  | readUnanswered hu _ hn _ =>
    exact hs.of_sameReading ⟨rfl, rfl, rfl, rfl⟩ hn (.inr (hlog hu hquery)) rfl fun _ => hu.1
  | resets => exact coherent_reset _ _

/-- Taking a call off the host's list keeps the invariant, which does not speak of the list. -/
theorem Coherent.withCalls {s : State} (hs : Coherent s) (later : List Request) : Coherent { s with calls := later } :=
  hs.of_sameReading ⟨rfl, rfl, rfl, rfl⟩ hs.count (.inl rfl) rfl id

/-- What a step that answers does: nothing, or the next call's operation (R166). -/
theorem step_next {s t : State} (h : step s = .next t) :
    t = s ∨ ∃ i later, exec i { s with calls := later } = .next t := by
  unfold step at h
  split at h
  · exact .inl (Host.Outcome.next.inj h).symm
  · rename_i i s' hf
    obtain ⟨r, later, -, -, rfl⟩ := fetch_operation hf
    exact .inr ⟨i, later, h⟩
  · cases h

/-! ### The obligations of 10_state.md -/

/-- Settles O47: RESET makes the invariant true afresh; every other effect keeps the reading or stores one payload's, and adds
at most one host frame to a log that the boot frame already begins. -/
theorem stepKeepsInvariant : Obligations.StepKeepsInvariant := by
  intro s t hs h
  rcases step_next h with rfl | ⟨i, later, he⟩
  · exact hs
  · exact (hs.withCalls later).effect (exec_effect he)

/-- Settles O37: the only effects that leave the block BUSY or hand nothing back need a listed reply that never comes. -/
theorem hostOperationsEndIdle : Obligations.HostOperationsEndIdle := by
  intro i s hi hidle hboot ⟨hrx, htx⟩
  obtain ⟨t, hrun⟩ := exec_hostOperation_answers hi ⟨hidle, hboot⟩
  refine ⟨t, hrun, ?_⟩
  cases exec_effect hrun with
  | returns _ hv => exact ⟨hidle, hv⟩
  | scans hscan _ =>
    simp only [List.mem_cons, List.not_mem_nil, or_false] at hscan
    rcases hscan with rfl | rfl <;> simp [hostOperations] at hi
  | writeUnanswered _ _ hr => exact absurd (nextTxReply_never hr) htx
  | writeFails => simp
  | writes => simp
  | readFinds => simp
  | readFindsNothing => simp
  | readUnanswered _ _ _ hnever => exact absurd hnever hrx
  | resets => simp [hostOperations] at hi

/-- Settles O41. -/
theorem readingKeptUnlessFrameFound : Obligations.ReadingKeptUnlessFrameFound := by
  intro i s t hreset h
  rcases (exec_effect h).reading hreset with ⟨hsame, hnotOk⟩ | ⟨hread, hok, hframe⟩
  · exact ⟨fun _ => hsame, fun hi => ⟨fun hok => absurd hok (hnotOk hi), fun _ => hsame⟩⟩
  · exact ⟨fun hi => absurd hread hi, fun _ => ⟨fun _ => hframe, fun hnot => absurd hok hnot⟩⟩

/-- Settles O42: the status is kept, or it is that of a verdict. -/
theorem statusNeverReturnsToEmpty : Obligations.StatusNeverReturnsToEmpty := by
  intro i s t hreset hne h
  rcases (exec_effect h).reading hreset with ⟨⟨-, -, hstatus, -⟩, -⟩ | ⟨-, -, p, hframe⟩
  · rwa [hstatus]
  · exact hframe.status_ne_empty

/-- Settles O45. -/
theorem parametersFixedBetweenResets : Obligations.ParametersFixedBetweenResets :=
  fun _ _ _ h => (exec_effect h).parameters

/-- Settles O21: the budget is tested before the first read. -/
theorem scanWithZeroBudgetReadsNothing : Obligations.ScanWithZeroBudgetReadsNothing := by
  intro s h
  show execScan s = _
  rw [execScan, scan_of_maxScan_zero h]
  rfl

/-- Settles O36: BUSY is the first test of the common start. -/
theorem hostOperationsRefusedWhileBusy : Obligations.HostOperationsRefusedWhileBusy := by
  intro i s hi hbusy
  obtain ⟨body, hbody⟩ := exec_hostOperation hi s
  rw [hbody, hostOp_busy hbusy]

/-- Settles O40. -/
theorem resetStateIsResultOfReset : Obligations.ResetStateIsResultOfReset := by
  intro s hok hcounts
  show Host.Outcome.next (bootWrite (freshInstance 512 s)) = _
  have hok' : nextTxReply (freshInstance 512 s).tx = .answer .ok := hok
  rw [bootWrite_ok hok']
  simp [freshInstance, State.reset, txAfter, hcounts, Config.defaultMaxScan]

/-- Settles O48. -/
theorem resetMeetsInvariant : Obligations.ResetMeetsInvariant where
  reading := .inl ⟨rfl, rfl, rfl, rfl⟩
  count := Nat.zero_le _
  log := .inr ⟨[], rfl, by simp⟩
  booted _ _ := by simp [State.reset]
  notBooted hb := by simp [State.reset] at hb

end Sys2Proof.Machine
end

/-! ## The memory family: what the two streams hand over and keep, and who touches them -/

section
namespace Sys2Proof.Machine

/-! ### `RxRead`, one equation per listed reply -/

theorem rxRead_of_data {n : Nat} {rx : RxStream} {bs : List Byte} {later : List (Reply RxAnswer)}
    (h : rx.future = .answer (.data bs) :: later) :
    rxRead n rx =
      (.answer (.data (bs.take n)),
        { future := if bs.length ≤ n then later else .answer (.data (bs.drop n)) :: later, calls := rx.calls + 1 }) := by
  unfold rxRead
  rw [h]
  rfl

theorem rxRead_of_fail {n : Nat} {rx : RxStream} {later : List (Reply RxAnswer)}
    (h : rx.future = .answer .fail :: later) :
    rxRead n rx = (.answer .fail, { future := later, calls := rx.calls + 1 }) := by
  unfold rxRead
  rw [h]
  rfl

theorem rxRead_of_never {n : Nat} {rx : RxStream} {later : List (Reply RxAnswer)}
    (h : rx.future = .never :: later) :
    rxRead n rx = (.never, { future := later, calls := rx.calls + 1 }) := by
  unfold rxRead
  rw [h]

/-! ### The streams under an operation's effect -/

/-- R31, R33: only READ, WAKE and SLEEP (RESET apart) call `TxWrite`, each once and with its own frame. -/
theorem Effect.tx {i : Instr} {s t : State} (h : Effect s i t) (hreset : ∀ n, i ≠ .reset n) :
    t.tx = s.tx ∨
    ∃ f log, (i, f) ∈ [(Instr.read, queryFrame), (.wake, wakeFrame), (.sleep, sleepFrame)] ∧
      (log = s.tx.log ∨ log = s.tx.log ++ [f]) ∧ t.tx = txAfter s.tx log := by
  have hframe (hi : i ∈ [Instr.read, .wake, .sleep]) :
      ∃ f, (i, f) ∈ [(Instr.read, queryFrame), (.wake, wakeFrame), (.sleep, sleepFrame)] := by
    simp only [List.mem_cons, List.not_mem_nil, or_false] at hi
    rcases hi with rfl | rfl | rfl <;> simp
  cases h with
  | returns => exact .inl rfl
  | scans => exact .inl rfl
  | writeUnanswered hi =>
    obtain ⟨f, hf⟩ := hframe hi
    exact .inr ⟨f, _, hf, .inl rfl, rfl⟩
  | writeFails hi =>
    obtain ⟨f, hf⟩ := hframe hi
    exact .inr ⟨f, _, hf, .inl rfl, rfl⟩
  | writes hi => exact .inr ⟨_, _, List.mem_cons_of_mem _ hi, .inr rfl, rfl⟩
  | readFinds => exact .inr ⟨queryFrame, _, List.mem_cons_self, .inr rfl, rfl⟩
  | readFindsNothing => exact .inr ⟨queryFrame, _, List.mem_cons_self, .inr rfl, rfl⟩
  | readUnanswered => exact .inr ⟨queryFrame, _, List.mem_cons_self, .inr rfl, rfl⟩
  | resets => exact absurd rfl (hreset _)

/-- R30, R35: only SCAN, SCANSTEP and the SCAN inside READ call `RxRead`. -/
theorem Effect.rx {i : Instr} {s t : State} (h : Effect s i t) (hi : i ∉ [Instr.scan, .scanStep, .read]) :
    t.rx = s.rx := by
  cases h with
  | returns => rfl
  | scans hscan =>
    refine absurd ?_ hi
    simp only [List.mem_cons, List.not_mem_nil, or_false] at hscan ⊢
    exact hscan.imp_right .inl
  | writeUnanswered => rfl
  | writeFails => rfl
  | writes => rfl
  | readFinds => simp at hi
  | readFindsNothing => simp at hi
  | readUnanswered => simp at hi
  | resets => rw [bootWrite_frame, freshInstance_rx]

/-! ### Another TX log -/

/-- The state with another TX log in place of its own, and nothing else changed. -/
def withTxLog (l : List (List Byte)) (s : State) : State :=
  { s with tx := { s.tx with log := l } }

@[simp] theorem withTxLog_rx (l : List (List Byte)) (s : State) : (withTxLog l s).rx = s.rx := rfl

theorem markerTurn_withTxLog (l : List (List Byte)) (s : State) :
    markerTurn (withTxLog l s) = ((markerTurn s).1, withTxLog l (markerTurn s).2) := by
  unfold markerTurn
  by_cases hspent : charged s = true ∧ s.scCnt = s.maxScan
  · rw [if_pos hspent]
    exact if_pos hspent
  · rw [if_neg hspent]
    refine (if_neg hspent).trans ?_
    rw [withTxLog_rx]
    rcases rxRead 1 s.rx with ⟨(_ | _) | _, rx⟩ <;> rfl

theorem payloadTurn_withTxLog (l : List (List Byte)) (s : State) :
    payloadTurn (withTxLog l s) = ((payloadTurn s).1, withTxLog l (payloadTurn s).2) := by
  unfold payloadTurn
  rw [withTxLog_rx]
  rcases rxRead 8 s.rx with ⟨(_ | _) | _, rx⟩ <;> rfl

theorem scanTurn_withTxLog (l : List (List Byte)) (s : State) :
    scanTurn (withTxLog l s) = ((scanTurn s).1, withTxLog l (scanTurn s).2) := by
  by_cases hp : s.scPhase = .payload
  · rw [scanTurn_payload hp, scanTurn_payload (s := withTxLog l s) hp, payloadTurn_withTxLog]
  · rw [scanTurn_marker hp, scanTurn_marker (s := withTxLog l s) hp, markerTurn_withTxLog]

theorem scanLoop_withTxLog (l : List (List Byte)) (n : Nat) (s : State) :
    scanLoop n (withTxLog l s) = ((scanLoop n s).1, withTxLog l (scanLoop n s).2) := by
  induction n generalizing s with
  | zero => rfl
  | succ n ih =>
    unfold scanLoop
    rw [scanTurn_withTxLog]
    rcases scanTurn s with ⟨ph | r, s'⟩
    · exact ih s'
    · rfl

theorem scan_withTxLog (l : List (List Byte)) (s : State) :
    scan (withTxLog l s) = ((scan s).1, withTxLog l (scan s).2) :=
  scanLoop_withTxLog l _ (scanStart s)

/-! ### Blindness to the TX log -/

/-- An update that commutes with replacing the TX log, up to the log it leaves. -/
def LogBlind (f : State → State) : Prop :=
  ∀ s l, ∃ l', f (withTxLog l s) = withTxLog l' (f s)

/-- An operation that, where it answers a next state, answers the same one from any other TX log, up to the log it leaves. -/
def LogBlindOp (op : State → Out) : Prop :=
  ∀ s t l, op s = .next t → ∃ l', op (withTxLog l s) = .next (withTxLog l' t)

theorem LogBlind.next {f : State → State} (hf : LogBlind f) : LogBlindOp fun s => .next (f s) := by
  intro s t l h
  obtain rfl := Host.Outcome.next.inj h
  obtain ⟨l', e⟩ := hf s l
  exact ⟨l', congrArg _ e⟩

theorem logBlind_give (v : Returned) : LogBlind (give v) := fun _ l => ⟨l, rfl⟩

theorem logBlind_finish (v : Returned) : LogBlind (finish v) := fun _ l => ⟨l, rfl⟩

theorem logBlind_readOutcome (r : ScanResult) : LogBlind (readOutcome r) := by
  intro s l
  cases r <;> exact ⟨l, rfl⟩

theorem logBlind_readScan : LogBlind readScan := by
  intro s l
  unfold readScan
  rw [scan_withTxLog]
  exact logBlind_readOutcome _ _ l

/-- A write chooses what follows by the reply alone (R33), so it is as blind to the log as what follows. -/
theorem LogBlind.writeThen {rest : State → State} (hrest : LogBlind rest) (f : List Byte) :
    LogBlind (writeThen f rest) := by
  intro s l
  rcases nextTxReply_cases s.tx with h | h | h
  · rw [writeThen_ok h, writeThen_ok (s := withTxLog l s) h]
    exact hrest { s with tx := txAfter s.tx (s.tx.log ++ [f]) } (l ++ [f])
  · rw [writeThen_fail h, writeThen_fail (s := withTxLog l s) h]
    exact ⟨l, rfl⟩
  · rw [writeThen_never h, writeThen_never (s := withTxLog l s) h]
    exact ⟨l, rfl⟩

/-- RESET empties the log before its boot write (R150; log 14), so the log it leaves does not depend on the old one at all. -/
theorem logBlind_reset (n : Nat) : LogBlind fun s => bootWrite (freshInstance n s) :=
  fun s _ => ⟨(bootWrite (freshInstance n s)).tx.log, rfl⟩

theorem LogBlind.hostOp {body : State → State} (hbody : LogBlind body) : LogBlindOp (hostOp body) := by
  intro s t l h
  obtain ⟨hidle, hboot, rfl⟩ := hostOp_next h
  obtain ⟨l', e⟩ := hbody { s with drvState := .busy, returned := .pending } l
  exact ⟨l', (hostOp_runs (s := withTxLog l s) hidle hboot).trans (congrArg _ e)⟩

theorem logBlindOp_scan : LogBlindOp execScan := by
  intro s t l h
  obtain rfl := Host.Outcome.next.inj h
  refine ⟨l, ?_⟩
  rw [execScan, scan_withTxLog]
  rfl

theorem logBlindOp_scanStep : LogBlindOp execScanStep := by
  intro s t l h
  obtain rfl := Host.Outcome.next.inj h
  refine ⟨l, ?_⟩
  rw [execScanStep, scanTurn_withTxLog]
  rfl

/-- No operation reads the TX log (R31, R45). An accessor's value is read from the registers, which another log leaves alone. -/
theorem logBlindOp_exec (i : Instr) : LogBlindOp (exec i) := by
  cases i with
  | build c m p => exact (logBlind_give _).next
  | query => exact (logBlind_give _).next
  | setMode => exact (logBlind_give _).next
  | wakeF => exact (logBlind_give _).next
  | sleepF => exact (logBlind_give _).next
  | scan => exact logBlindOp_scan
  | decode p => exact (logBlind_give _).next
  | check p => exact (logBlind_give _).next
  | read => exact (logBlind_readScan.writeThen _).hostOp
  | wake => exact ((logBlind_finish _).writeThen _).hostOp
  | sleep => exact ((logBlind_finish _).writeThen _).hostOp
  | getPm25 => exact fun s => (logBlind_finish (.concentration (s.rdPm25.map concentrationOf))).hostOp s
  | getPm10 => exact fun s => (logBlind_finish (.concentration (s.rdPm10.map concentrationOf))).hostOp s
  | getStatus => exact fun s => (logBlind_finish (.status s.rdStatus)).hostOp s
  | getRaw => exact fun s => (logBlind_finish (.raw s.rdRaw)).hostOp s
  | reservedOpsel111 => exact fun _ _ _ h => nomatch h
  | reset n => exact (logBlind_reset n).next
  | sum8 bs => exact (logBlind_give _).next
  | csumc c m p => exact (logBlind_give _).next
  | csumm d0 d1 d2 d3 d4 d5 => exact (logBlind_give _).next
  | scanStep => exact logBlindOp_scanStep

/-! ### The obligations of 20_memory.md -/

/-- Settles O6: an entry is cut at `n` bytes, which is no cut when it is no longer than that. -/
theorem rxReadTakesNextBytes : Obligations.RxReadTakesNextBytes := by
  intro n rx later
  refine ⟨fun bs h hle => ?_, fun bs h hlt => ?_, rxRead_of_fail, rxRead_of_never, fun _ _ => rxRead_data_length⟩
  · rw [rxRead_of_data h, List.take_of_length_le hle, if_pos hle]
  · rw [rxRead_of_data h, if_neg (Nat.not_le.mpr hlt)]

/-- Settles O7. -/
theorem txWriteAppendsWholeOrNothing : Obligations.TxWriteAppendsWholeOrNothing := by
  intro bs tx
  refine ⟨fun h => ?_, fun h => ?_⟩
  · rw [txWrite_eq, h, if_pos rfl]
  · rw [txWrite_eq, h, if_neg (by decide)]

/-- Settles O43. -/
theorem txLogGrowsByOwnFrames : Obligations.TxLogGrowsByOwnFrames := by
  intro i s t hreset h
  rcases (exec_effect h).tx hreset with hsame | ⟨f, log, hi, hlog, htx⟩
  · exact .inl hsame
  · simp only [List.mem_cons, Prod.mk.injEq, List.not_mem_nil, or_false] at hi
    right
    rw [htx]
    rcases hi with ⟨rfl, rfl⟩ | ⟨rfl, rfl⟩ | ⟨rfl, rfl⟩ <;> simpa using hlog

/-- Settles O44. -/
theorem onlyScannerReadsRx : Obligations.OnlyScannerReadsRx :=
  fun _ _ _ hi h => (exec_effect h).rx hi

/-- Settles O46: every operation is composed of updates that commute with replacing the log. -/
theorem txLogIsNeverReadBack : Obligations.TxLogIsNeverReadBack :=
  fun i => logBlindOp_exec i

end Sys2Proof.Machine
end

/-! ## The encoding family: requests and operations name each other -/

section
namespace Sys2Proof

/-! ### What the decoder of each format answers -/

/-- A test that rejects, passed. -/
theorem rejectIf_eq_ok {ε α : Type} {c : Prop} [Decidable c] {e : ε} {x : Except ε α} {a : α} :
    (if c then .error e else x) = .ok a ↔ ¬c ∧ x = .ok a := by
  by_cases h : c <;> simp [h]

/-- The name a command frame is read by: its own where it has one, BUILD otherwise (R51, R56; log 4). -/
def frameName (c m p : Byte) : Instr :=
  (namedFrame c m p).getD (.build c m p)

theorem decode_commandFrame (c m p : Byte) : decode (.commandWord (commandFrame c m p)) = .ok (frameName c m p) :=
  decodeCommandWord_commandFrame c m p

/-- A frame that is BUILD's but for its checksum byte is rejected for that byte (R50). -/
theorem decodeCommandWord_badChecksum {c m p k : Byte} (h : k ≠ csumc c m p) :
    decodeCommandWord ([Config.hdr, Config.cmdIdOut, c, m, p] ++ List.replicate Config.nZero 0x00
      ++ [Config.padFf, Config.padFf, k, Config.tail]) = .error .checksum := by
  simp [decodeCommandWord, Config.cmdLen, Config.nZero, h]

/-- A 19-byte word, cut at the fields of R50. -/
theorem commandWord_fields {bs : List Byte} (h : bs.length = Config.cmdLen) :
    bs = [bs.getD 0 0, bs.getD 1 0, bs.getD 2 0, bs.getD 3 0, bs.getD 4 0] ++ (bs.drop 5).take Config.nZero
      ++ ((bs.drop 15).take 2 ++ [bs.getD 17 0, bs.getD 18 0]) := by
  match bs, h with
  | [_, _, _, _, _, _, _, _, _, _, _, _, _, _, _, _, _, _, _], _ => rfl

/-- Only the frames of BUILD are read as command frames: every byte but the three operands is tested (R50). -/
theorem decodeCommandWord_eq_ok {bs : List Byte} {i : Instr} (h : decodeCommandWord bs = .ok i) :
    ∃ c m p, bs = commandFrame c m p ∧ i = frameName c m p := by
  simp only [decodeCommandWord, rejectIf_eq_ok, not_not, Except.ok.injEq] at h
  obtain ⟨hlength, hheader, hid, hzero, hff, hsum, htail, hname⟩ := h
  refine ⟨bs.getD 2 0, bs.getD 3 0, bs.getD 4 0, ?_, hname.symm⟩
  have hfields := commandWord_fields hlength
  rwa [hheader, hid, hzero, hff, hsum, htail] at hfields

theorem decode_measurementFrame (p : Payload) : decode (.measurementWord (measurementFrame p)) = .ok .scan :=
  rfl

/-- Only a measurement frame is read as SCAN, whatever its payload is (R52). -/
theorem decodeMeasurementWord_eq_ok {bs : List Byte} {i : Instr} (h : decodeMeasurementWord bs = .ok i) :
    ∃ p, bs = measurementFrame p ∧ i = .scan := by
  simp only [decodeMeasurementWord, rejectIf_eq_ok, not_not, Except.ok.injEq] at h
  obtain ⟨hlength, hheader, hmarker, rfl⟩ := h
  match bs, hlength with
  | [_, _, a, b, c, d, e, f, k, t], _ =>
    obtain rfl := hheader
    obtain rfl := hmarker
    exact ⟨⟨a, b, c, d, e, f, k, t⟩, rfl, rfl⟩

/-- The 8 bytes of a payload are read as the operation on it (R59, R96). -/
theorem decodePayloadWord_payloadBytes (op : Payload → Instr) (p : Payload) :
    decodePayloadWord op (payloadBytes p) = .ok (op p) :=
  rfl

/-- Only the 8 bytes of a payload are read as an operation on it (R52). -/
theorem decodePayloadWord_eq_ok {op : Payload → Instr} {bs : List Byte} {i : Instr}
    (h : decodePayloadWord op bs = .ok i) : ∃ p, bs = payloadBytes p ∧ i = op p := by
  unfold decodePayloadWord at h
  split at h
  · rename_i p hp
    exact ⟨p, payloadOfBytes_eq_some hp, (Except.ok.inj h).symm⟩
  · cases h

/-! ### What the encoder gives for what the decoder answers -/

/-- The table of R51: what a command frame with these operands is named. -/
inductive NameOfFrame : Byte → Byte → Byte → Instr → Prop where
  | query : NameOfFrame 0x04 0x00 0x00 .query
  | setMode : NameOfFrame 0x02 0x01 0x01 .setMode
  | wakeF : NameOfFrame 0x06 0x01 0x01 .wakeF
  | sleepF : NameOfFrame 0x06 0x01 0x00 .sleepF
  | build {c m p : Byte} : namedFrame c m p = none → NameOfFrame c m p (.build c m p)

/-- The decoder's name for a command frame is the table's. -/
theorem nameOfFrame_frameName (c m p : Byte) : NameOfFrame c m p (frameName c m p) := by
  unfold frameName
  cases h : namedFrame c m p with
  | none => exact .build h
  | some i =>
    unfold namedFrame at h
    split_ifs at h with hquery hsetMode hwakeF hsleepF
    all_goals obtain rfl := Option.some.inj h
    · obtain ⟨rfl, rfl, rfl⟩ := hquery
      exact .query
    · obtain ⟨rfl, rfl, rfl⟩ := hsetMode
      exact .setMode
    · obtain ⟨rfl, rfl, rfl⟩ := hwakeF
      exact .wakeF
    · obtain ⟨rfl, rfl, rfl⟩ := hsleepF
      exact .sleepF

/-- The name of a command frame is well-formed: BUILD is the name only where there is no other. -/
theorem NameOfFrame.wellFormed {c m p : Byte} {i : Instr} (h : NameOfFrame c m p i) : WellFormed i := by
  cases h with
  | build hnone => simp [WellFormed, Sys2Proof.wellFormed, hnone]
  | _ => rfl

/-- A command frame is the encoding of its name, whichever it has (R51, R56). -/
theorem NameOfFrame.encode {c m p : Byte} {i : Instr} (h : NameOfFrame c m p i) :
    encode i = .commandWord (commandFrame c m p) := by
  cases h <;> rfl

/-- BUILD is read back as BUILD where its frame has no other name (log 4). -/
theorem frameName_of_wellFormed {c m p : Byte} (h : WellFormed (.build c m p)) : frameName c m p = .build c m p := by
  have hnone : namedFrame c m p = none := by simpa [WellFormed, wellFormed] using h
  simp [frameName, hnone]

/-- Each of the 8 select codes is that of the operation it names (R57). -/
theorem encode_decodeSelect : ∀ opsel, encode (decodeSelect opsel) = .select opsel := by
  decide

theorem wellFormed_decodeSelect : ∀ opsel, WellFormed (decodeSelect opsel) := by
  decide

theorem encode_decodeUnit (c : UnitCall) : encode (decodeUnit c) = .unit c := by
  cases c <;> rfl

theorem wellFormed_decodeUnit (c : UnitCall) : WellFormed (decodeUnit c) := by
  cases c <;> rfl

end Sys2Proof

namespace Sys2Proof.Machine

/-- BUILD hands back its frame and changes nothing else (R80). -/
theorem exec_build (c m p : Byte) (s : State) :
    exec (.build c m p) s = .next { s with returned := .frame (commandFrame c m p) } :=
  rfl

/-! ### The obligations of 30_encoding.md -/

/-- Settles O1: the four named frames are read by their names, a well-formed BUILD's frame has no other name, and every other
request is read field by field. -/
theorem decodeOfEncodeIsIdentity : Obligations.DecodeOfEncodeIsIdentity := by
  intro i hwf
  cases i with
  | build c m p =>
    have hname := decode_commandFrame c m p
    rwa [frameName_of_wellFormed hwf] at hname
  | query => exact decode_commandFrame _ _ _
  | setMode => exact decode_commandFrame _ _ _
  | wakeF => exact decode_commandFrame _ _ _
  | sleepF => exact decode_commandFrame _ _ _
  | scan => exact decode_measurementFrame ⟨0, 0, 0, 0, 0, 0, 0, 0⟩
  | decode p => exact decodePayloadWord_payloadBytes .decode p
  | check p => exact decodePayloadWord_payloadBytes .check p
  | _ => rfl

/-- Settles O2: each format accepts only the encoding of what it answers, but for the payload bits that the mask of SCAN ignores. -/
theorem decodeReadsEveryBit : Obligations.DecodeReadsEveryBit := by
  intro r i h
  cases r with
  | select opsel =>
    obtain rfl := Except.ok.inj h
    exact ⟨wellFormed_decodeSelect opsel, .inr ⟨by simp, encode_decodeSelect opsel⟩⟩
  | commandWord bs =>
    obtain ⟨c, m, p, rfl, rfl⟩ := decodeCommandWord_eq_ok h
    have hname := nameOfFrame_frameName c m p
    exact ⟨hname.wellFormed, .inr ⟨by simp, hname.encode⟩⟩
  | measurementWord bs =>
    obtain ⟨p, rfl, rfl⟩ := decodeMeasurementWord_eq_ok h
    exact ⟨rfl, .inl ⟨p, rfl, rfl⟩⟩
  | decoderWord bs =>
    obtain ⟨p, rfl, rfl⟩ := decodePayloadWord_eq_ok h
    exact ⟨rfl, .inr ⟨by simp, rfl⟩⟩
  | validatorWord bs =>
    obtain ⟨p, rfl, rfl⟩ := decodePayloadWord_eq_ok h
    exact ⟨rfl, .inr ⟨by simp, rfl⟩⟩
  | unit c =>
    obtain rfl := Except.ok.inj h
    exact ⟨wellFormed_decodeUnit c, .inr ⟨by simp, encode_decodeUnit c⟩⟩

/-- Settles O3. -/
theorem specWordsDecode : Obligations.SpecWordsDecode := by
  refine ⟨?query, ?build, ?badChecksum, ?scan, ?payload, rfl, rfl, rfl⟩
  case query => exact decode_commandFrame 0x04 0x00 0x00
  case build => exact decode_commandFrame 0x08 0x01 0x05
  case badChecksum => exact decodeCommandWord_badChecksum (c := 0x08) (m := 0x01) (p := 0x05) (k := 0x0D) (by decide)
  case scan => exact decode_measurementFrame ⟨0xB0, 0x04, 0xC2, 0x01, 0x12, 0x34, 0xBD, 0xAB⟩
  case payload => exact decodePayloadWord_payloadBytes .decode ⟨0xB0, 0x04, 0xC2, 0x01, 0x12, 0x34, 0xBD, 0xAB⟩

/-- Settles O15: each name's frame is BUILD's at its operands. -/
theorem namedFrames : Obligations.NamedFrames := by
  intro s
  refine ⟨⟨?query, rfl⟩, ⟨?setMode, rfl⟩, ⟨?wakeF, rfl⟩, ⟨?sleepF, rfl⟩⟩
  case query => exact exec_build 0x04 0x00 0x00 s
  case setMode => exact exec_build 0x02 0x01 0x01 s
  case wakeF => exact exec_build 0x06 0x01 0x01 s
  case sleepF => exact exec_build 0x06 0x01 0x00 s

/-- Settles O35: the reserved code's meaning is its refusal. -/
theorem reservedCodeRefused : Obligations.ReservedCodeRefused :=
  fun _ => rfl

end Sys2Proof.Machine
end

/-! ## The checksum family: modular sums of bytes, and what a payload's verdict can tell apart -/

section
namespace Sys2Proof

/-! ### SUM8 -/

theorem toNat_sum8 (bs : List Byte) : (sum8 bs).toNat = (bs.map BitVec.toNat).sum % 256 :=
  rfl

@[simp] theorem sum8_nil : sum8 [] = 0 :=
  rfl

/-- Reducing after every addition changes nothing: an 8-bit adder may drop its carry (R70). -/
@[simp] theorem sum8_cons (b : Byte) (bs : List Byte) : sum8 (b :: bs) = b + sum8 bs := by
  simp [sum8, BitVec.ofNat_add]

theorem sum8_append (as bs : List Byte) : sum8 (as ++ bs) = sum8 as + sum8 bs := by
  simp [sum8, BitVec.ofNat_add]

theorem sum8_eq_sum (bs : List Byte) : sum8 bs = bs.sum := by
  induction bs with
  | nil => rfl
  | cons b bs ih => rw [sum8_cons, ih, List.sum_cons]

/-- SUM8 as the loop of an 8-bit adder (R70). -/
theorem sum8_eq_foldl (bs : List Byte) : sum8 bs = bs.foldl (· + ·) 0 := by
  rw [sum8_eq_sum, List.sum_eq_foldl]

theorem sum8_perm {as bs : List Byte} (h : as.Perm bs) : sum8 as = sum8 bs :=
  congrArg (BitVec.ofNat 8) (h.map BitVec.toNat).sum_nat

/-- A byte can only be overwritten by itself if the sum is to stay: addition of bytes cancels. -/
theorem set_eq_self_of_sum8_eq {bs : List Byte} {k : Nat} {b : Byte} (h : sum8 (bs.set k b) = sum8 bs) :
    bs.set k b = bs := by
  induction bs generalizing k with
  | nil => rfl
  | cons a bs ih =>
    cases k with
    | zero =>
      have hab : b = a := by simpa using h
      rw [List.set_cons_zero, hab]
    | succ k =>
      have hrest : sum8 (bs.set k b) = sum8 bs := by simpa using h
      rw [List.set_cons_succ, ih hrest]

/-- The sum of the data bytes over the integers, written out (R72). -/
theorem toNat_sum8_six (d0 d1 d2 d3 d4 d5 : Byte) : (sum8 [d0, d1, d2, d3, d4, d5]).toNat =
    (d0.toNat + d1.toNat + d2.toNat + d3.toNat + d4.toNat + d5.toNat) % 256 := by
  rw [toNat_sum8]
  simp [add_assoc]

/-! ### CSUMC -/

theorem toNat_csumc (c m p : Byte) : (csumc c m p).toNat = (c.toNat + m.toNat + p.toNat + 255 + 255) % 256 :=
  rfl

/-- The two PADFF bytes together are -2 modulo 256 (R71). -/
theorem csumc_eq_sub_two (c m p : Byte) : csumc c m p = c + m + p - 2 := by
  apply BitVec.eq_of_toNat_eq
  rw [toNat_csumc]
  bv_omega

/-- The ten zero bytes of a command frame add nothing (R50, R71). -/
theorem sum8_replicate_zero (n : Nat) : sum8 (List.replicate n 0) = 0 := by
  rw [sum8_eq_sum, List.sum_replicate, nsmul_zero]

/-- CSUMC covers the frame from the command byte to the second PADFF (R71). -/
theorem commandFrame_summed (c m p : Byte) :
    ((commandFrame c m p).drop 2).take 15 =
      [c, m, p] ++ List.replicate Config.nZero 0x00 ++ [Config.padFf, Config.padFf] :=
  rfl

theorem sum8_commandFrame (c m p : Byte) : sum8 (((commandFrame c m p).drop 2).take 15) = csumc c m p := by
  have hoperands : sum8 [c, m, p] = c + m + p := by simp [add_assoc]
  have hpad : sum8 [Config.padFf, Config.padFf] = -2 := by decide
  rw [commandFrame_summed, sum8_append, sum8_append, sum8_replicate_zero, hoperands, hpad, csumc_eq_sub_two,
    add_zero, sub_eq_add_neg]

/-! ### The bytes CHECK sums -/

/-- The six data bytes of a payload (R72, R73). -/
def dataBytes (p : Payload) : List Byte :=
  [p.pm25Lo, p.pm25Hi, p.pm10Lo, p.pm10Hi, p.id1, p.id2]

theorem payloadBytes_eq_dataBytes (p : Payload) : payloadBytes p = dataBytes p ++ [p.checksum, p.tail] :=
  rfl

theorem payloadBytes_injective : Function.Injective payloadBytes := by
  intro p q h
  have hsome : some p = some q := by rw [← payloadOfBytes_payloadBytes p, h, payloadOfBytes_payloadBytes]
  exact Option.some.inj hsome

/-- What R75 calls "sum minus checksum": CHECK sees nothing else of the data bytes and the checksum byte. -/
def checkResidue (p : Payload) : Byte :=
  sum8 (dataBytes p) - p.checksum

theorem checkResidue_eq_zero {p : Payload} : checkResidue p = 0 ↔ p.checksum = sum8 (dataBytes p) := by
  rw [checkResidue, sub_eq_zero, eq_comm]

theorem checkResidue_eq_add (p : Payload) :
    checkResidue p = p.pm25Lo + p.pm25Hi + p.pm10Lo + p.pm10Hi + p.id1 + p.id2 - p.checksum := by
  simp [checkResidue, dataBytes, add_assoc]

end Sys2Proof

namespace Sys2Proof.Machine

/-! ### The verdict of CHECK -/

/-- R74, by the sum of the data bytes. -/
theorem verdictOf_eq_ok {p : Payload} :
    verdictOf p = .ok ↔ p.checksum = sum8 (dataBytes p) ∧ p.tail = Config.tail := by
  simp [verdictOf, csumm, dataBytes]

theorem verdictOf_eq_nok {p : Payload} : verdictOf p = .nok ↔ verdictOf p ≠ .ok := by
  cases verdictOf p <;> decide

/-- R74, by the residue. -/
theorem verdictOf_eq_residue (p : Payload) :
    verdictOf p = if checkResidue p = 0 ∧ p.tail = Config.tail then .ok else .nok :=
  if_congr (and_congr_left' checkResidue_eq_zero.symm) rfl rfl

/-- CHECK tells payloads apart by residue and tail only (R75). -/
theorem verdictOf_congr {p q : Payload} (htail : q.tail = p.tail) (hresidue : checkResidue q = checkResidue p) :
    verdictOf q = verdictOf p := by
  rw [verdictOf_eq_residue, verdictOf_eq_residue, htail, hresidue]

/-- Of two payloads that pass CHECK and differ in one byte at most, neither differs: in a data byte the sum would show it, and
the checksum byte and the tail are determined by the rest (R75). -/
theorem eq_of_verdictOf_ok_of_set {p q : Payload} {k : Nat} {b : Byte}
    (hset : payloadBytes q = (payloadBytes p).set k b) (hp : verdictOf p = .ok) (hq : verdictOf q = .ok) : q = p := by
  obtain ⟨hpsum, hptail⟩ := verdictOf_eq_ok.mp hp
  obtain ⟨hqsum, hqtail⟩ := verdictOf_eq_ok.mp hq
  suffices hdata : dataBytes q = dataBytes p by
    apply payloadBytes_injective
    rw [payloadBytes_eq_dataBytes, payloadBytes_eq_dataBytes, hqsum, hpsum, hqtail, hptail, hdata]
  rw [payloadBytes_eq_dataBytes, payloadBytes_eq_dataBytes, List.set_append] at hset
  split at hset
  · obtain ⟨hdata, hend⟩ := List.append_inj hset (by simp [dataBytes])
    have hchecksum : q.checksum = p.checksum := (List.cons.inj hend).1
    have hsum : sum8 ((dataBytes p).set k b) = sum8 (dataBytes p) := by rw [← hdata, ← hqsum, hchecksum, hpsum]
    rw [hdata, set_eq_self_of_sum8_eq hsum]
  · exact (List.append_inj hset rfl).1

/-! ### What the checksum unit hands back -/

theorem exec_sum8 (bs : List Byte) (s : State) :
    exec (.sum8 bs) s = .next { s with returned := .byte (sum8 bs) } :=
  rfl

theorem exec_csumc (c m p : Byte) (s : State) :
    exec (.csumc c m p) s = .next { s with returned := .byte (csumc c m p) } :=
  rfl

theorem exec_csumm (d0 d1 d2 d3 d4 d5 : Byte) (s : State) :
    exec (.csumm d0 d1 d2 d3 d4 d5) s = .next { s with returned := .byte (sum8 [d0, d1, d2, d3, d4, d5]) } :=
  rfl

theorem exec_check (p : Payload) (s : State) :
    exec (.check p) s = .next { s with returned := .verdict (verdictOf p) } :=
  rfl

theorem exec_check_eq_verdict {p : Payload} {s : State} {v : Verdict} :
    exec (.check p) s = .next { s with returned := .verdict v } ↔ verdictOf p = v := by
  simp [exec_check]

/-! ### The obligations of 40_checksum.md -/

/-- Settles O8. -/
theorem sum8IsSumModulo256 : Obligations.Sum8IsSumModulo256 := by
  intro bs s
  refine ⟨sum8 bs, exec_sum8 bs s, toNat_sum8 bs, sum8_eq_foldl bs, fun cs hperm => ?_⟩
  rw [exec_sum8, sum8_perm hperm]

/-- Settles O9: the two PADFF bytes are the formula's 255 + 255, and the zero bytes between add nothing. -/
theorem csumcFormula : Obligations.CsumcFormula := by
  intro c m p s
  refine ⟨csumc c m p, exec_csumc c m p s, toNat_csumc c m p, ?shorter, csumc_eq_sub_two c m p,
    commandFrame c m p, exec_build c m p s, ?frame⟩
  case shorter =>
    rw [toNat_csumc]
    omega
  case frame => rw [exec_sum8, sum8_commandFrame]

/-- Settles O12. -/
theorem checkDetectsSingleByteChange : Obligations.CheckDetectsSingleByteChange := by
  intro p q k b s hset hne hp
  rw [exec_check_eq_verdict] at hp ⊢
  exact verdictOf_eq_nok.mpr fun hq => hne (eq_of_verdictOf_ok_of_set hset hp hq)

/-- Settles O13: either way the residue is the same. -/
theorem checkMissesCancellingChanges : Obligations.CheckMissesCancellingChanges := by
  intro p q s htail hcancels
  have hresidue : checkResidue q = checkResidue p := by
    rcases hcancels with hresidue | ⟨hchecksum, hperm⟩
    · rwa [← checkResidue_eq_add, ← checkResidue_eq_add] at hresidue
    · have hsum : sum8 (dataBytes q) = sum8 (dataBytes p) := sum8_perm hperm
      rw [checkResidue, checkResidue, hsum, hchecksum]
  rw [exec_check, exec_check, verdictOf_congr htail hresidue]

/-- Settles O10. -/
theorem csummIsSumOfSixDataBytes : Obligations.CsummIsSumOfSixDataBytes := by
  intro d0 d1 d2 d3 d4 d5 s
  exact ⟨sum8 [d0, d1, d2, d3, d4, d5], exec_csumm d0 d1 d2 d3 d4 d5 s, exec_sum8 _ s,
    toNat_sum8_six d0 d1 d2 d3 d4 d5⟩

/-- Settles O11: bytes are equal exactly when they are as integers. -/
theorem checkVerdict : Obligations.CheckVerdict := by
  intro p s
  rw [exec_check_eq_verdict, ← toNat_sum8_six]
  exact if_congr (and_congr_left' BitVec.toNat_inj.symm) rfl rfl

end Sys2Proof.Machine
end

/-! ## The encoder family: the frame of every operand triple -/

section
namespace Sys2Proof

/-- R80's template written out: the operands at their places, constants elsewhere, and CSUMC's byte next to last. -/
theorem commandFrame_eq_template (c m p : Byte) :
    commandFrame c m p =
      [0xAA, 0xB4, c, m, p, 0x00, 0x00, 0x00, 0x00, 0x00, 0x00, 0x00, 0x00, 0x00, 0x00, 0xFF, 0xFF, csumc c m p, 0xAB] :=
  rfl

end Sys2Proof

namespace Sys2Proof.Machine

/-! ### The obligation of 41_encoder.md -/

/-- Settles O14: BUILD hands back the template with CSUMC's byte, which is the formula's sum. -/
theorem buildFrame : Obligations.BuildFrame := by
  intro c m p s
  refine ⟨csumc c m p, toNat_csumc c m p, ?frame⟩
  case frame => rw [exec_build, commandFrame_eq_template]

end Sys2Proof.Machine
end

/-! ## The scanner family: the rows of a turn, what noise makes of the phase, and what a whole SCAN comes to -/

section
namespace Sys2Proof.Machine

/-! ### What DECODE, SCANSTEP and SCAN hand back -/

theorem exec_decode (p : Payload) (s : State) :
    exec (.decode p) s = .next { s with returned := .reading (readingOf p) } :=
  rfl

theorem exec_scanStep (s : State) :
    exec .scanStep s = .next (give (stepReturned (scanTurn s).1) (scanTurn s).2) :=
  rfl

theorem exec_scan (s : State) : exec .scan s = .next (give (scanReturned (scan s).1) (scan s).2) :=
  rfl

/-- Two bytes never overflow the 16-bit field (R37). -/
theorem toNat_le16 (lo hi : Byte) : (le16 lo hi).toNat = lo.toNat + 256 * hi.toNat := by
  rw [le16, BitVec.toNat_ofNat]
  omega

theorem scanReturned_ne_phase (r : ScanResult) (ph : ScPhase) : scanReturned r ≠ .phase ph := by
  cases r <;> simp [scanReturned]

theorem scanReturned_eq_pending {r : ScanResult} : scanReturned r = .pending ↔ r = .blocked := by
  cases r <;> simp [scanReturned]

theorem scanReturned_eq_notFound {r : ScanResult} : scanReturned r = .scan .notFound ↔ r = .notFound := by
  cases r <;> simp [scanReturned]

@[simp] theorem payloadResult_payloadBytes (p : Payload) : payloadResult (payloadBytes p) = .found (readingOf p) :=
  rfl

/-- Fewer than 8 bytes are no payload (R95). -/
theorem payloadResult_of_short {bs : List Byte} (h : bs.length ≤ 7) : payloadResult bs = .decodeFailure := by
  have hnone : payloadOfBytes bs = none := payloadOfBytes_eq_none.mpr (by simp [Config.payloadLen]; omega)
  rw [payloadResult, hnone]

theorem payloadResult_ne_notFound (bs : List Byte) : payloadResult bs ≠ .notFound := by
  unfold payloadResult
  split <;> simp

/-! ### The phase and the count after a one-byte read -/

@[simp] theorem phaseAfter_payload (bs : List Byte) : phaseAfter .payload bs = .payload := rfl

@[simp] theorem phaseAfter_hunt_hdr : phaseAfter .hunt [Config.hdr] = .cmd := by simp [phaseAfter]

@[simp] theorem phaseAfter_cmd_cmdIdIn : phaseAfter .cmd [Config.cmdIdIn] = .payload := by simp [phaseAfter]

theorem phaseAfter_nil {ph : ScPhase} (h : ph ≠ .payload) : phaseAfter ph [] = .hunt := by
  cases ph with
  | hunt => rfl
  | cmd => rfl
  | payload => exact absurd rfl h

theorem phaseAfter_hunt_of_ne {b : Byte} (h : b ≠ Config.hdr) : phaseAfter .hunt [b] = .hunt :=
  if_neg (by simpa using h)

theorem phaseAfter_cmd_of_ne {b : Byte} (h : b ≠ Config.cmdIdIn) : phaseAfter .cmd [b] = .hunt :=
  if_neg (by simpa using h)

/-- Every read in HUNT is charged (R91). -/
theorem charged_of_hunt {s : State} (h : s.scPhase = .hunt) : charged s = true := by
  simp [charged, h]

/-- A read in CMD is charged when CMD_READ_COUNTS is true (R91, R102). -/
theorem charged_of_cmd {s : State} (h : s.scPhase = .cmd) : charged s = s.cmdReadCounts := by
  simp [charged, h]

theorem charged_of_cmdReadCounts {s : State} (h : s.cmdReadCounts = true) : charged s = true := by
  simp [charged, h]

theorem countAfter_of_charged {s : State} (h : charged s = true) : countAfter s = s.scCnt + 1 :=
  if_pos h

theorem countAfter_of_cmd {s : State} (h : s.scPhase = .cmd) :
    countAfter s = if s.cmdReadCounts then s.scCnt + 1 else s.scCnt := by
  rw [countAfter, charged_of_cmd h]

theorem le_countAfter (s : State) : s.scCnt ≤ countAfter s := by
  unfold countAfter
  split <;> omega

theorem countAfter_le (s : State) : countAfter s ≤ s.scCnt + 1 := by
  unfold countAfter
  split <;> omega

/-! ### One turn, by what meets it -/

/-- The turn makes a one-byte read: the phase asks for one and the budget allows it (R91). -/
def ReadsMarker (s : State) : Prop :=
  s.scPhase ≠ .payload ∧ ¬(charged s = true ∧ s.scCnt = s.maxScan)

theorem ReadsMarker.of_hunt {s : State} (h : s.scPhase = .hunt) (hc : s.scCnt ≠ s.maxScan) : ReadsMarker s :=
  ⟨by simp [h], fun hspent => hc hspent.2⟩

theorem ReadsMarker.of_cmd {s : State} (h : s.scPhase = .cmd)
    (hc : s.cmdReadCounts = true → s.scCnt ≠ s.maxScan) : ReadsMarker s :=
  ⟨by simp [h], fun ⟨hcharged, hspent⟩ => hc (charged_of_cmd h ▸ hcharged) hspent⟩

theorem ReadsMarker.of_lt {s : State} (h : s.scPhase ≠ .payload) (hc : s.scCnt < s.maxScan) : ReadsMarker s :=
  ⟨h, fun hspent => hc.ne hspent.2⟩

/-- The budget is tested before the read (R91, R137). -/
theorem scanTurn_of_spent {s : State} (hp : s.scPhase ≠ .payload) (hc : charged s = true) (h : s.scCnt = s.maxScan) :
    scanTurn s = (.ends .notFound, s) := by
  rw [scanTurn_marker hp, markerTurn, if_pos ⟨hc, h⟩]

theorem scanTurn_of_data {s : State} {bs : List Byte} {rx : RxStream} (h : ReadsMarker s)
    (hr : rxRead 1 s.rx = (.answer (.data bs), rx)) :
    scanTurn s = (.goesOn (phaseAfter s.scPhase bs),
      { s with scPhase := phaseAfter s.scPhase bs, scCnt := countAfter s, rx := rx }) := by
  rw [scanTurn_marker h.1, markerTurn, if_neg h.2, hr]

theorem scanTurn_of_fail {s : State} {rx : RxStream} (h : ReadsMarker s) (hr : rxRead 1 s.rx = (.answer .fail, rx)) :
    scanTurn s = (.ends .transportFault, { s with scCnt := countAfter s, rx := rx }) := by
  rw [scanTurn_marker h.1, markerTurn, if_neg h.2, hr]

theorem scanTurn_of_payloadData {s : State} {bs : List Byte} {rx : RxStream} (h : s.scPhase = .payload)
    (hr : rxRead 8 s.rx = (.answer (.data bs), rx)) :
    scanTurn s = (.ends (payloadResult bs), { s with rx := rx }) := by
  rw [scanTurn_payload h, payloadTurn, hr]

theorem scanTurn_of_payloadFail {s : State} {rx : RxStream} (h : s.scPhase = .payload)
    (hr : rxRead 8 s.rx = (.answer .fail, rx)) :
    scanTurn s = (.ends .transportFault, { s with rx := rx }) := by
  rw [scanTurn_payload h, payloadTurn, hr]

/-- A SCANSTEP that goes on hands back the phase it stores (R55, R103). -/
theorem exec_scanStep_of_data {s : State} {bs : List Byte} {rx : RxStream} (h : ReadsMarker s)
    (hr : rxRead 1 s.rx = (.answer (.data bs), rx)) :
    exec .scanStep s = .next
      { s with scPhase := phaseAfter s.scPhase bs, scCnt := countAfter s, rx := rx,
               returned := .phase (phaseAfter s.scPhase bs) } := by
  rw [exec_scanStep, scanTurn_of_data h hr]
  rfl

/-- The rows of R103 for HUNT, the byte left open. -/
theorem exec_scanStep_hunt {s : State} {bs : List Byte} {rx : RxStream} (h : s.scPhase = .hunt)
    (hc : s.scCnt ≠ s.maxScan) (hr : rxRead 1 s.rx = (.answer (.data bs), rx)) :
    exec .scanStep s = .next
      { s with scPhase := phaseAfter .hunt bs, scCnt := s.scCnt + 1, rx := rx,
               returned := .phase (phaseAfter .hunt bs) } := by
  rw [exec_scanStep_of_data (.of_hunt h hc) hr, countAfter_of_charged (charged_of_hunt h), h]

/-- The rows of R103 for CMD, the byte left open. -/
theorem exec_scanStep_cmd {s : State} {bs : List Byte} {rx : RxStream} (h : s.scPhase = .cmd)
    (hc : s.cmdReadCounts = true → s.scCnt ≠ s.maxScan) (hr : rxRead 1 s.rx = (.answer (.data bs), rx)) :
    exec .scanStep s = .next
      { s with scPhase := phaseAfter .cmd bs, scCnt := if s.cmdReadCounts then s.scCnt + 1 else s.scCnt, rx := rx,
               returned := .phase (phaseAfter .cmd bs) } := by
  rw [exec_scanStep_of_data (.of_cmd h hc) hr, countAfter_of_cmd h, h]

/-! ### The calls that a scan makes -/

@[simp] theorem scanTurn_cmdReadCounts (s : State) : (scanTurn s).2.cmdReadCounts = s.cmdReadCounts := by
  rw [scanTurn_frame]

/-- A turn that goes on made one call, in phase HUNT or CMD (R91). -/
theorem scanTurn_goesOn_calls {s s' : State} {ph : ScPhase} (h : scanTurn s = (.goesOn ph, s')) :
    s'.rx.calls = s.rx.calls + 1 ∧ s'.scCnt = countAfter s := by
  by_cases hp : s.scPhase = .payload
  · rw [scanTurn_payload hp] at h
    rcases payloadTurn_cases s with ⟨rx, -, e⟩ | ⟨rx, -, e⟩ | ⟨bs, rx, -, e⟩ <;> simp [e] at h
  · rw [scanTurn_marker hp] at h
    rcases markerTurn_cases s with ⟨-, -, e⟩ | ⟨-, ⟨rx, -, e⟩ | ⟨rx, -, e⟩ | ⟨bs, rx, hr, e⟩⟩ <;>
      simp [e] at h
    obtain ⟨-, rfl⟩ := h
    exact ⟨by simpa [hr] using rxRead_calls 1 s.rx, rfl⟩

/-- The turn that ends a scan makes one call, but for the one that finds the budget used up (R91, R94, R98). -/
theorem scanTurn_ends_calls {s t : State} {r : ScanResult} (h : scanTurn s = (.ends r, t)) :
    (r = .notFound ∧ t = s ∧ s.scCnt = s.maxScan) ∨
    (r ≠ .notFound ∧ t.rx.calls = s.rx.calls + 1 ∧ s.scCnt ≤ t.scCnt) := by
  by_cases hp : s.scPhase = .payload
  · rw [scanTurn_payload hp] at h
    right
    rcases payloadTurn_cases s with ⟨rx, hr, e⟩ | ⟨rx, hr, e⟩ | ⟨bs, rx, hr, e⟩
    all_goals
      obtain ⟨hres, rfl⟩ := Prod.mk.inj (e.symm.trans h)
      obtain rfl := StepResult.ends.inj hres
      refine ⟨?_, by simpa [hr] using rxRead_calls 8 s.rx, le_rfl⟩
    · simp
    · simp
    · exact payloadResult_ne_notFound bs
  · rw [scanTurn_marker hp] at h
    rcases markerTurn_cases s with ⟨-, hspent, e⟩ | ⟨-, ⟨rx, hr, e⟩ | ⟨rx, hr, e⟩ | ⟨bs, rx, -, e⟩⟩
    · simp only [e, Prod.mk.injEq, StepResult.ends.injEq] at h
      exact .inl ⟨h.1.symm, h.2.symm, hspent⟩
    iterate 2
      simp only [e, Prod.mk.injEq, StepResult.ends.injEq] at h
      obtain ⟨rfl, rfl⟩ := h
      exact .inr ⟨by simp, by simpa [hr] using rxRead_calls 1 s.rx, le_countAfter s⟩
    · simp [e] at h

theorem ScanRuns.calls_mono {s t : State} {r : ScanResult} (h : ScanRuns s r t) : s.rx.calls ≤ t.rx.calls := by
  induction h with
  | ends e =>
    rcases scanTurn_ends_calls e with ⟨-, rfl, -⟩ | ⟨-, hcalls, -⟩
    · exact le_rfl
    · omega
  | goesOn e _ ih =>
    have hcalls := (scanTurn_goesOn_calls e).1
    omega

/-- A turn makes at most one call, so the turns left bound the calls left (R101, R102). -/
theorem ScanRuns.calls_le_turnsLeft {s t : State} {r : ScanResult} (h : ScanRuns s r t) (hc : s.scCnt ≤ s.maxScan) :
    t.rx.calls ≤ s.rx.calls + turnsLeft s := by
  induction h with
  | @ends s t r e =>
    have hturns : 1 ≤ turnsLeft s := by
      unfold turnsLeft
      split <;> omega
    rcases scanTurn_ends_calls e with ⟨-, rfl, -⟩ | ⟨-, hcalls, -⟩ <;> omega
  | @goesOn s s' t ph r e _ ih =>
    have hm : s'.maxScan = s.maxScan := by simpa [e] using scanTurn_maxScan s
    have hc' : s'.scCnt ≤ s.maxScan := by simpa [e] using scanTurn_count hc
    have hturns := turnsLeft_goesOn hc e
    have hcalls := (scanTurn_goesOn_calls e).1
    have hrest := ih (hm ▸ hc')
    omega

/-- With CMD_READ_COUNTS true the count goes up with every call but the payload read (R91, R101). -/
theorem ScanRuns.calls_charged {s t : State} {r : ScanResult} (h : ScanRuns s r t) (hcounts : s.cmdReadCounts = true) :
    t.rx.calls + s.scCnt ≤ s.rx.calls + t.scCnt + 1 ∧
    (r = .notFound → t.rx.calls + s.scCnt = s.rx.calls + t.scCnt) := by
  induction h with
  | @ends s t r e =>
    rcases scanTurn_ends_calls e with ⟨-, rfl, -⟩ | ⟨hr, hcalls, hcnt⟩
    · exact ⟨by omega, fun _ => rfl⟩
    · exact ⟨by omega, fun h => absurd h hr⟩
  | @goesOn s s' t ph r e _ ih =>
    have hcounts' : s'.cmdReadCounts = true := by simpa [e, hcounts] using scanTurn_cmdReadCounts s
    obtain ⟨hcalls, hcnt⟩ := scanTurn_goesOn_calls e
    rw [countAfter_of_charged (charged_of_cmdReadCounts hcounts)] at hcnt
    obtain ⟨hle, heq⟩ := ih hcounts'
    exact ⟨by omega, fun hr => by have := heq hr; omega⟩

/-- NotFound is the answer of a used-up budget only (R91, R98). -/
theorem ScanRuns.notFound_count {s t : State} {r : ScanResult} (h : ScanRuns s r t) (hr : r = .notFound) :
    t.scCnt = t.maxScan := by
  induction h with
  | ends e =>
    rcases scanTurn_ends_calls e with ⟨-, rfl, hspent⟩ | ⟨hne, -⟩
    · exact hspent
    · exact absurd hr hne
  | goesOn _ _ ih => exact ih hr

/-! ### SCANSTEPs until one ends the scan -/

@[simp] theorem give_give (v w : Returned) (s : State) : give v (give w s) = give v s := rfl

/-- The scanner does not read what was handed back before (log 5). -/
theorem scanTurn_give (v : Returned) (s : State) :
    scanTurn (give v s) = ((scanTurn s).1, give v (scanTurn s).2) := by
  by_cases hp : s.scPhase = .payload
  · rw [scanTurn_payload hp, scanTurn_payload (s := give v s) hp, payloadTurn, payloadTurn, give_rx]
    rcases rxRead 8 s.rx with ⟨(_ | _) | _, rx⟩ <;> rfl
  · rw [scanTurn_marker hp, scanTurn_marker (s := give v s) hp, markerTurn, markerTurn, give_rx]
    by_cases hspent : charged s = true ∧ s.scCnt = s.maxScan
    · rw [if_pos hspent]
      exact if_pos hspent
    · rw [if_neg hspent]
      refine (if_neg hspent).trans ?_
      rcases rxRead 1 s.rx with ⟨(_ | _) | _, rx⟩ <;> rfl

theorem exec_scanStep_give (v : Returned) (s : State) : exec .scanStep (give v s) = exec .scanStep s := by
  rw [exec_scanStep, exec_scanStep, scanTurn_give, give_give]

/-- A run of turns as a run of SCANSTEPs, which hand back a phase after each turn that goes on. -/
theorem ScanRuns.stepsToResult {s t : State} {r : ScanResult} (h : ScanRuns s r t) (v : Returned) :
    StepsToResult (give v s) (give (scanReturned r) t) := by
  induction h generalizing v with
  | @ends s t r e =>
    refine .last ?_ (scanReturned_ne_phase r)
    rw [exec_scanStep_give, exec_scanStep, e]
    rfl
  | @goesOn s s' t ph r e _ ih =>
    refine .more (s' := give (.phase ph) s') ?_ rfl (ih _)
    rw [exec_scanStep_give, exec_scanStep, e]
    rfl

theorem StepsToResult.unique {s t t' : State} (h : StepsToResult s t) (h' : StepsToResult s t') : t' = t := by
  induction h with
  | last e hend =>
    cases h' with
    | last e' _ => exact Host.Outcome.next.inj (e'.symm.trans e)
    | more e' hgoes _ =>
      obtain rfl := Host.Outcome.next.inj (e'.symm.trans e)
      exact absurd hgoes (hend _)
  | more e hgoes _ ih =>
    cases h' with
    | last e' hend =>
      obtain rfl := Host.Outcome.next.inj (e'.symm.trans e)
      exact absurd hgoes (hend _)
    | more e' _ hrest =>
      obtain rfl := Host.Outcome.next.inj (e'.symm.trans e)
      exact ih hrest

/-- SCANSTEPs from HUNT and count 0 lead to what SCAN leaves, and to nothing else (R90, R98). -/
theorem stepsToResult_scanStart {s t : State} :
    StepsToResult (scanStart s) t ↔ t = give (scanReturned (scan s).1) (scan s).2 := by
  have hsteps := (scan_runs s).stepsToResult s.returned
  constructor
  · exact fun h => hsteps.unique h
  · rintro rfl
    exact hsteps

/-- What a run of turns from HUNT and count 0 comes to is what SCAN comes to. -/
theorem scan_eq_of_runs {s t : State} {r : ScanResult} (h : ScanRuns (scanStart s) r t) : scan s = (r, t) := by
  obtain ⟨hr, ht⟩ := (scan_runs s).unique h
  rw [← hr, ← ht]

/-! ### The obligations of 42_scanner.md on a turn, and on the end of every SCAN -/

/-- Settles O19: the run of turns that is SCAN is a run of SCANSTEPs, and SCANSTEP answers one state only. -/
theorem scanIsRepeatedScanStep : Obligations.ScanIsRepeatedScanStep := by
  intro s
  refine ⟨give (scanReturned (scan s).1) (scan s).2, stepsToResult_scanStart.mpr rfl,
    fun t' h => stepsToResult_scanStart.mp h, exec_scan s, ?frame, scan_count s, ?answered⟩
  case frame =>
    rw [scan_frame]
    rfl
  case answered =>
    intro hanswers hpending
    exact hanswers.1 ((scan_runs s).blocked (scanReturned_eq_pending.mp hpending))

/-- Settles O20: a turn makes one call at most; with CMD_READ_COUNTS true the count follows the calls. -/
theorem scanReadCallsBounded : Obligations.ScanReadCallsBounded := by
  intro s t h
  obtain rfl := Host.Outcome.next.inj h
  have hruns := scan_runs s
  have hcount : (scan s).2.scCnt ≤ s.maxScan := scan_count s
  refine ⟨hruns.calls_mono, fun hcounts => ?_, fun _ => ?_, fun hret => ?_⟩
  · have hcalls := (hruns.calls_charged hcounts).1
    simp only [scanStart_rx, scanStart_scCnt] at hcalls
    simp only [give_rx]
    omega
  · exact hruns.calls_le_turnsLeft (Nat.zero_le _)
  · have hnotFound := scanReturned_eq_notFound.mp hret
    have hspent : (scan s).2.scCnt = s.maxScan := by
      rw [hruns.notFound_count hnotFound, scan_frame]
    refine ⟨hspent, fun hcounts => ?_⟩
    have hcalls := (hruns.calls_charged hcounts).2 hnotFound
    rw [hspent] at hcalls
    exact hcalls

/-- Settles O16. -/
theorem decodeReading : Obligations.DecodeReading := by
  intro p s
  exact ⟨readingOf p, exec_decode p s, toNat_le16 _ _, toNat_le16 _ _, exec_check p s, rfl⟩

/-- Settles O17: each row is the phase's own equation at that answer. -/
theorem scanStepMarkerRows : Obligations.ScanStepMarkerRows := by
  intro s rx
  refine ⟨fun h hc hr => ?hunt_hdr, fun b hb h hc hr => ?hunt_other, fun h hc hr => ?hunt_noData,
    fun h hc hr => ?cmd_marker, fun b hb h hc hr => ?cmd_other, fun h hc hr => ?cmd_noData⟩
  case hunt_hdr => exact exec_scanStep_hunt h hc hr
  case hunt_other => rw [exec_scanStep_hunt h hc hr, phaseAfter_hunt_of_ne hb, h]
  case hunt_noData => rw [exec_scanStep_hunt h hc hr, phaseAfter_nil (by decide), h]
  case cmd_marker => exact exec_scanStep_cmd h hc hr
  case cmd_other => rw [exec_scanStep_cmd h hc hr, phaseAfter_cmd_of_ne hb]
  case cmd_noData => exact exec_scanStep_cmd h hc hr

/-- Settles O18. -/
theorem scanStepEndRows : Obligations.ScanStepEndRows := by
  intro s rx
  refine ⟨fun p h hr => ⟨readingOf p, exec_decode p s, ?found⟩, fun bs hbs h hr => ?short, fun h hr => ?payload_fail,
    fun h hc hr => ?hunt_fail, fun h hc hr => ?cmd_fail, fun h hspent => ?spent⟩
  case found =>
    rw [exec_scanStep, scanTurn_of_payloadData h hr]
    rfl
  case short =>
    rw [exec_scanStep, scanTurn_of_payloadData h hr, payloadResult_of_short hbs]
    rfl
  case payload_fail =>
    rw [exec_scanStep, scanTurn_of_payloadFail h hr]
    rfl
  case hunt_fail =>
    rw [exec_scanStep, scanTurn_of_fail (.of_hunt h hc) hr, countAfter_of_charged (charged_of_hunt h)]
    rfl
  case cmd_fail =>
    rw [exec_scanStep, scanTurn_of_fail (.of_cmd h hc) hr, countAfter_of_cmd h]
    rfl
  case spent =>
    have hp : s.scPhase ≠ .payload := by
      rcases h with h | ⟨h, -⟩ <;> simp [h]
    have hcharged : charged s = true := by
      rcases h with h | ⟨-, hcounts⟩
      · exact charged_of_hunt h
      · exact charged_of_cmdReadCounts hcounts
    rw [exec_scanStep, scanTurn_of_spent hp hcharged hspent]
    rfl

/-- Settles O22: after the header the budget is used up, and the read in CMD is charged or it is not. -/
theorem scanWithBudgetOfOne : Obligations.ScanWithBudgetOfOne := by
  intro s p rx1 rx2 rx3 hmax hr1 hr2 hr3
  have hstart : ReadsMarker (scanStart s) := .of_hunt rfl (by simp [hmax])
  have hheader : scanTurn (scanStart s) = (.goesOn .cmd, { s with scPhase := .cmd, scCnt := 1, rx := rx1 }) :=
    scanTurn_of_data hstart hr1
  refine ⟨fun hcounts => ?charged, fun hcounts => ?uncharged⟩
  case charged =>
    have hspent := scanTurn_of_spent (s := { s with scPhase := .cmd, scCnt := 1, rx := rx1 }) (by simp)
      (charged_of_cmdReadCounts hcounts) hmax.symm
    rw [exec_scan, scan_eq_of_runs (.goesOn hheader (.ends hspent))]
    rfl
  case uncharged =>
    have hmarker := scanTurn_of_data (.of_cmd (s := { s with scPhase := .cmd, scCnt := 1, rx := rx1 }) rfl
      (by simp [hcounts])) hr2
    have hruns := ScanRuns.goesOn hheader (.goesOn hmarker (.ends (scanTurn_of_payloadData rfl hr3)))
    rw [exec_scan, scan_eq_of_runs hruns, countAfter_of_cmd rfl, hcounts]
    rfl

end Sys2Proof.Machine
end

/-! ## Noise before a frame: the phase it leaves, and the frame found behind it -/

section
namespace Sys2Proof.Machine

/-! ### Runs of 0xAA and conditions (a) and (b) -/

@[simp] theorem aaRun_concat_hdr (bs : List Byte) : aaRun (bs ++ [Config.hdr]) = aaRun bs + 1 := by
  simp [aaRun]

theorem aaRun_concat_of_ne (bs : List Byte) {b : Byte} (h : b ≠ Config.hdr) : aaRun (bs ++ [b]) = 0 := by
  simp [aaRun, h]

/-- Condition (a) of R100. -/
def NoMarkerAfterOddRun (bs : List Byte) : Prop :=
  ∀ before after, bs = before ++ Config.cmdIdIn :: after → aaRun before % 2 = 0

theorem harmlessNoise_iff {noise : List Byte} :
    HarmlessNoise noise ↔ NoMarkerAfterOddRun noise ∧ aaRun noise % 2 = 0 :=
  Iff.rfl

theorem noMarkerAfterOddRun_nil : NoMarkerAfterOddRun [] := by
  intro before after h
  simp at h

/-- A byte more breaks condition (a) only as an 0xC0 after an odd run. -/
theorem noMarkerAfterOddRun_concat {bs : List Byte} {b : Byte} :
    NoMarkerAfterOddRun (bs ++ [b]) ↔ NoMarkerAfterOddRun bs ∧ (b = Config.cmdIdIn → aaRun bs % 2 = 0) := by
  constructor
  · refine fun h => ⟨fun before after e => h before (after ++ [b]) (by simp [e]), ?_⟩
    rintro rfl
    exact h bs [] rfl
  · rintro ⟨hbs, hb⟩ before after e
    rcases List.eq_nil_or_concat after with rfl | ⟨after, c, rfl⟩
    · obtain ⟨rfl, hlast⟩ := List.append_inj' e rfl
      exact hb (List.cons.inj hlast).1
    · rw [List.concat_eq_append, ← List.cons_append, ← List.append_assoc] at e
      exact hbs before after (List.append_inj' e rfl).1

/-! ### The phase over a sequence of bytes -/

/-- The phase after one-byte reads that hand over these bytes (R92, R93); PAYLOAD, once reached, stays. -/
def phaseOver (ph : ScPhase) (bs : List Byte) : ScPhase :=
  bs.foldl (fun ph b => phaseAfter ph [b]) ph

@[simp] theorem phaseOver_nil (ph : ScPhase) : phaseOver ph [] = ph := rfl

@[simp] theorem phaseOver_cons (ph : ScPhase) (b : Byte) (bs : List Byte) :
    phaseOver ph (b :: bs) = phaseOver (phaseAfter ph [b]) bs :=
  rfl

@[simp] theorem phaseOver_concat (ph : ScPhase) (bs : List Byte) (b : Byte) :
    phaseOver ph (bs ++ [b]) = phaseAfter (phaseOver ph bs) [b] := by
  simp [phaseOver]

@[simp] theorem phaseOver_payload (bs : List Byte) : phaseOver .payload bs = .payload := by
  induction bs with
  | nil => rfl
  | cons b bs ih => exact ih

/-- 0xAA takes HUNT to CMD and CMD back to HUNT (R93). -/
theorem phaseAfter_hdr (ph : ScPhase) :
    (phaseAfter ph [Config.hdr] = .hunt ↔ ph = .cmd) ∧ (phaseAfter ph [Config.hdr] = .cmd ↔ ph = .hunt) := by
  cases ph <;> decide

theorem phaseAfter_cmdIdIn (ph : ScPhase) :
    (phaseAfter ph [Config.cmdIdIn] = .hunt ↔ ph = .hunt) ∧ phaseAfter ph [Config.cmdIdIn] ≠ .cmd := by
  cases ph <;> decide

/-- A byte that is neither marker leads to HUNT from either phase (R92, R93). -/
theorem phaseAfter_other (ph : ScPhase) {b : Byte} (ha : b ≠ Config.hdr) (hc : b ≠ Config.cmdIdIn) :
    (phaseAfter ph [b] = .hunt ↔ ph = .hunt ∨ ph = .cmd) ∧ phaseAfter ph [b] ≠ .cmd := by
  cases ph with
  | hunt => simp [phaseAfter_hunt_of_ne ha]
  | cmd => simp [phaseAfter_cmd_of_ne hc]
  | payload => simp

/-- While the markers are not matched, the phase is CMD exactly after an odd run of 0xAA (R93, R100). -/
theorem phaseOver_hunt_iff (bs : List Byte) :
    (phaseOver .hunt bs = .hunt ↔ NoMarkerAfterOddRun bs ∧ aaRun bs % 2 = 0) ∧
    (phaseOver .hunt bs = .cmd ↔ NoMarkerAfterOddRun bs ∧ aaRun bs % 2 = 1) := by
  induction bs using List.reverseRecOn with
  | nil => simp [noMarkerAfterOddRun_nil, aaRun]
  | append_singleton bs b ih =>
    obtain ⟨ihHunt, ihCmd⟩ := ih
    rw [phaseOver_concat, noMarkerAfterOddRun_concat]
    by_cases ha : b = Config.hdr
    · subst ha
      have hne : Config.hdr ≠ Config.cmdIdIn := by decide
      have hparity : ((aaRun bs + 1) % 2 = 0 ↔ aaRun bs % 2 = 1) ∧ ((aaRun bs + 1) % 2 = 1 ↔ aaRun bs % 2 = 0) := by
        omega
      rw [(phaseAfter_hdr _).1, (phaseAfter_hdr _).2, ihHunt, ihCmd, aaRun_concat_hdr, hparity.1, hparity.2]
      simp [hne]
    · rw [aaRun_concat_of_ne bs ha]
      by_cases hc : b = Config.cmdIdIn
      · subst hc
        simp [phaseAfter_cmdIdIn, ihHunt]
      · have hparity : aaRun bs % 2 = 0 ∨ aaRun bs % 2 = 1 := Nat.mod_two_eq_zero_or_one _
        simp [phaseAfter_other _ ha hc, ihHunt, ihCmd, hc, ← and_or_left, hparity]

/-- Conditions (a) and (b) say that the scanner stands in HUNT after the noise (R100). -/
theorem phaseOver_hunt_eq_hunt {noise : List Byte} : phaseOver .hunt noise = .hunt ↔ HarmlessNoise noise :=
  (phaseOver_hunt_iff noise).1.trans harmlessNoise_iff.symm

/-! ### The scanner over bytes read one by one -/

theorem oneByOne_append {as bs : List Byte} {rx rx' : RxStream} :
    OneByOne (as ++ bs) rx rx' ↔ ∃ mid, OneByOne as rx mid ∧ OneByOne bs mid rx' := by
  induction as generalizing rx with
  | nil => simp [OneByOne]
  | cons a as ih =>
    simp only [List.cons_append, OneByOne, ih]
    constructor
    · rintro ⟨first, hr, mid, has, hbs⟩
      exact ⟨mid, ⟨first, hr, has⟩, hbs⟩
    · rintro ⟨mid, ⟨first, hr, has⟩, hbs⟩
      exact ⟨first, hr, mid, has, hbs⟩

/-- SCANSTEPs hunt through the bytes to HUNT exactly when that is the phase over them. -/
theorem hunts_iff_phaseOver {bs : List Byte} {s : State} {rx : RxStream} (hread : OneByOne bs s.rx rx)
    (hp : s.scPhase ≠ .payload) (hbudget : s.scCnt + bs.length ≤ s.maxScan) :
    (∃ t, Hunts bs.length s t ∧ t.scPhase = .hunt) ↔ phaseOver s.scPhase bs = .hunt := by
  induction bs generalizing s with
  | nil => simp [Hunts]
  | cons b bs ih =>
    obtain ⟨mid, hr, hrest⟩ := hread
    rw [List.length_cons] at hbudget
    have hstep := exec_scanStep_of_data (.of_lt hp (by omega)) hr
    simp only [List.length_cons, Hunts, hstep, Host.Outcome.next.injEq, exists_eq_left', Returned.phase.injEq,
      phaseOver_cons]
    by_cases hnext : phaseAfter s.scPhase [b] = .payload
    · simp [hnext]
    · have hcount := countAfter_le s
      have hgoes : phaseAfter s.scPhase [b] = .hunt ∨ phaseAfter s.scPhase [b] = .cmd := by
        cases hph : phaseAfter s.scPhase [b] <;> simp_all
      simp only [hgoes, true_and]
      exact ih hrest hnext (by simp only; omega)

/-- Bytes that do not lead to PAYLOAD take a run of turns to the phase over them, each charged, but for the reads in CMD when
CMD_READ_COUNTS is false (R91 to R93). -/
theorem ScanRuns.of_bytes {bs : List Byte} {s : State} {rx : RxStream} (hread : OneByOne bs s.rx rx)
    (hbudget : s.scCnt + bs.length ≤ s.maxScan) (hph : phaseOver s.scPhase bs ≠ .payload) :
    ∃ n, n ≤ s.scCnt + bs.length ∧ (s.cmdReadCounts = true → n = s.scCnt + bs.length) ∧
      ∀ r t, ScanRuns { s with scPhase := phaseOver s.scPhase bs, scCnt := n, rx := rx } r t → ScanRuns s r t := by
  induction bs generalizing s with
  | nil =>
    obtain rfl : rx = s.rx := hread
    exact ⟨s.scCnt, le_rfl, fun _ => rfl, fun _ _ => id⟩
  | cons b bs ih =>
    obtain ⟨mid, hr, hrest⟩ := hread
    rw [List.length_cons] at hbudget ⊢
    have hp : s.scPhase ≠ .payload := fun h => hph (by rw [h, phaseOver_payload])
    have hturn := scanTurn_of_data (.of_lt hp (by omega)) hr
    have hcount := countAfter_le s
    obtain ⟨n, hle, heq, hruns⟩ := ih
      (s := { s with scPhase := phaseAfter s.scPhase [b], scCnt := countAfter s, rx := mid }) hrest (by simp only; omega) hph
    simp only at hle heq hruns
    refine ⟨n, by omega, fun hcounts => ?_, fun r t h => .goesOn hturn (hruns r t h)⟩
    have hcharged := countAfter_of_charged (charged_of_cmdReadCounts hcounts)
    have := heq hcounts
    omega

/-- The last two turns behind a header: 0xC0 leads to PAYLOAD, and what the payload read answers is the result (R93, R94). -/
theorem ScanRuns.of_marker_payload {s : State} {bs : List Byte} {rx1 rx2 : RxStream} (h : s.scPhase = .cmd)
    (hbudget : s.scCnt < s.maxScan) (hmarker : rxRead 1 s.rx = (.answer (.data [Config.cmdIdIn]), rx1))
    (hpayload : rxRead 8 rx1 = (.answer (.data bs), rx2)) :
    ScanRuns s (payloadResult bs)
      { s with scPhase := .payload, scCnt := if s.cmdReadCounts then s.scCnt + 1 else s.scCnt, rx := rx2 } := by
  have hturn := scanTurn_of_data (.of_cmd h fun _ => hbudget.ne) hmarker
  rw [h, phaseAfter_cmd_cmdIdIn, countAfter_of_cmd h] at hturn
  exact .goesOn hturn (.ends (scanTurn_of_payloadData rfl hpayload))

/-- R100: behind harmless noise SCAN matches the markers, and what the payload read answers is its result. -/
theorem scan_of_harmlessNoise {s : State} {noise bs : List Byte} {rx1 rx2 : RxStream} (hnoise : HarmlessNoise noise)
    (hbudget : noise.length + 2 ≤ s.maxScan) (hread : OneByOne (noise ++ [0xAA, 0xC0]) s.rx rx1)
    (hpayload : rxRead 8 rx1 = (.answer (.data bs), rx2)) :
    ∃ n, n ≤ noise.length + 2 ∧ (s.cmdReadCounts = true → n = noise.length + 2) ∧
      scan s = (payloadResult bs, { s with scPhase := .payload, scCnt := n, rx := rx2 }) := by
  have hcmd : phaseOver .hunt (noise ++ [Config.hdr]) = .cmd := by
    rw [phaseOver_concat, phaseOver_hunt_eq_hunt.mpr hnoise, phaseAfter_hunt_hdr]
  have hsplit : noise ++ [0xAA, 0xC0] = (noise ++ [Config.hdr]) ++ [Config.cmdIdIn] := by
    rw [List.append_assoc]
    rfl
  rw [hsplit] at hread
  obtain ⟨rx0, hheader, _, hmarker, rfl⟩ := oneByOne_append.mp hread
  obtain ⟨n, hle, heq, hruns⟩ := ScanRuns.of_bytes (s := scanStart s) hheader (by simp; omega) (by simp [hcmd])
  simp only [scanStart_scPhase, hcmd, scanStart_scCnt, scanStart_cmdReadCounts, List.length_append, List.length_singleton,
    Nat.zero_add] at hle heq hruns
  have hroom : n < (scanStart s).maxScan := by
    rw [scanStart_maxScan]
    omega
  have hscan := scan_eq_of_runs (hruns _ _ (.of_marker_payload rfl hroom hmarker hpayload))
  refine ⟨if s.cmdReadCounts then n + 1 else n, ?atMost, fun hcounts => ?exactly, hscan⟩
  case atMost => split <;> omega
  case exactly => rw [if_pos hcounts, heq hcounts]

/-- READ, once its query is written, is its SCAN and what that comes to (R110, R111). -/
theorem exec_read_of_written {s : State} (hidle : s.drvState = .idle) (hboot : s.bootFault = false)
    (hok : nextTxReply s.tx = .answer .ok) :
    exec .read s = .next (readScan
      { s with drvState := .busy, tx := txAfter s.tx (s.tx.log ++ [queryFrame]), returned := .pending }) := by
  show hostOp (writeThen queryFrame readScan) s = _
  rw [hostOp_runs hidle hboot]
  exact congrArg _ (writeThen_ok hok)

/-! ### The obligations of 42_scanner.md on noise -/

/-- Settles O24: the phase over the noise is HUNT exactly under (a) and (b). -/
theorem huntingThroughNoiseIffHarmless : Obligations.HuntingThroughNoiseIffHarmless := by
  intro s noise rx1 hbudget hread
  rw [← phaseOver_hunt_eq_hunt]
  exact hunts_iff_phaseOver (s := scanStart s) hread (by simp) (by simpa using hbudget)

/-- Settles O23. -/
theorem scanFindsFrameAfterHarmlessNoise : Obligations.ScanFindsFrameAfterHarmlessNoise := by
  intro s noise p rx1 rx2 hnoise hbudget hread hpayload
  obtain ⟨n, hle, heq, hscan⟩ := scan_of_harmlessNoise hnoise hbudget hread hpayload
  refine ⟨n, hle, heq, ?_⟩
  rw [exec_scan, hscan, payloadResult_payloadBytes]
  rfl

/-- Settles O27: the short payload ends READ's scan in a decode failure, which stores nothing. -/
theorem readOfShortPayloadReturnsNok : Obligations.ReadOfShortPayloadReturnsNok := by
  intro s noise bs rx1 rx2 hidle hboot hok hnoise hbudget hread hshort hpayload
  obtain ⟨n, -, -, hscan⟩ := scan_of_harmlessNoise
    (s := { s with drvState := .busy, tx := txAfter s.tx (s.tx.log ++ [queryFrame]), returned := .pending })
    hnoise hbudget hread hpayload
  refine ⟨n, ?_⟩
  rw [exec_read_of_written hidle hboot hok, readScan, hscan, payloadResult_of_short hshort, hidle]
  rfl

end Sys2Proof.Machine
end

/-! ## The sequencer family: what the host operations come to, once their write has been answered -/

section
namespace Sys2Proof.Machine

/-! ### Accessors, WAKE and SLEEP -/

/-- A host operation that only hands back a value changes nothing else: DRV_STATE is IDLE again (R114 to R118). -/
theorem hostOp_finish {s : State} (hidle : s.drvState = .idle) (hboot : s.bootFault = false) (v : Returned) :
    hostOp (finish v) s = .next { s with returned := v } := by
  have hback : finish v { s with drvState := .busy, returned := .pending } = give v s := finish_of_idle hidle v
  rw [hostOp_runs hidle hboot, hback]
  rfl

/-- A host operation that only writes a frame leaves it as the new last entry of the TX log (R112, R113). -/
theorem hostOp_writeThen_finish {s : State} (hidle : s.drvState = .idle) (hboot : s.bootFault = false)
    (hok : nextTxReply s.tx = .answer .ok) (f : List Byte) (v : Returned) :
    hostOp (writeThen f (finish v)) s =
      .next { s with tx := txAfter s.tx (s.tx.log ++ [f]), returned := v } := by
  have hwrite := writeThen_ok (f := f) (rest := finish v) (s := { s with drvState := .busy, returned := .pending }) hok
  rw [hostOp_runs hidle hboot, hwrite]
  exact congrArg _ (finish_of_idle (s := { s with tx := txAfter s.tx (s.tx.log ++ [f]) }) hidle v)

/-- The whole part and the tenth are quotient and remainder by ten, so no digit is lost (R114, R120). -/
theorem concentrationOf_exact (raw : Word16) :
    10 * (concentrationOf raw).whole + (concentrationOf raw).tenth.val = raw.toNat :=
  Nat.div_add_mod raw.toNat 10

/-- GETPM25 hands back what its register holds, as a decimal (R114). -/
theorem exec_getPm25 {s : State} (hidle : s.drvState = .idle) (hboot : s.bootFault = false) :
    exec .getPm25 s = .next { s with returned := .concentration (s.rdPm25.map concentrationOf) } :=
  hostOp_finish hidle hboot _

/-- GETPM10 hands back what its register holds, as a decimal (R115). -/
theorem exec_getPm10 {s : State} (hidle : s.drvState = .idle) (hboot : s.bootFault = false) :
    exec .getPm10 s = .next { s with returned := .concentration (s.rdPm10.map concentrationOf) } :=
  hostOp_finish hidle hboot _

/-! ### The scanner inside another state -/

/-- The state `u` with everything that the scanner reads or writes (R90 to R95) taken from `s`. -/
def withScannerOf (s u : State) : State :=
  { u with scPhase := s.scPhase, scCnt := s.scCnt, maxScan := s.maxScan, cmdReadCounts := s.cmdReadCounts, rx := s.rx }

@[simp] theorem withScannerOf_rx (s u : State) : (withScannerOf s u).rx = s.rx := rfl

theorem markerTurn_withScannerOf (s u : State) :
    markerTurn (withScannerOf s u) = ((markerTurn s).1, withScannerOf (markerTurn s).2 u) := by
  unfold markerTurn
  by_cases hspent : charged s = true ∧ s.scCnt = s.maxScan
  · rw [if_pos hspent]
    exact if_pos hspent
  · rw [if_neg hspent]
    refine (if_neg hspent).trans ?_
    rw [withScannerOf_rx]
    rcases rxRead 1 s.rx with ⟨(_ | _) | _, rx⟩ <;> rfl

theorem payloadTurn_withScannerOf (s u : State) :
    payloadTurn (withScannerOf s u) = ((payloadTurn s).1, withScannerOf (payloadTurn s).2 u) := by
  unfold payloadTurn
  rw [withScannerOf_rx]
  rcases rxRead 8 s.rx with ⟨(_ | _) | _, rx⟩ <;> rfl

/-- A turn is the same in every state with the same scanner, and touches the scanner only (R90). -/
theorem scanTurn_withScannerOf (s u : State) :
    scanTurn (withScannerOf s u) = ((scanTurn s).1, withScannerOf (scanTurn s).2 u) := by
  by_cases hp : s.scPhase = .payload
  · rw [scanTurn_payload hp, scanTurn_payload (s := withScannerOf s u) hp, payloadTurn_withScannerOf]
  · rw [scanTurn_marker hp, scanTurn_marker (s := withScannerOf s u) hp, markerTurn_withScannerOf]

theorem ScanRuns.withScannerOf {s t : State} {r : ScanResult} (h : ScanRuns s r t) (u : State) :
    ScanRuns (withScannerOf s u) r (withScannerOf t u) := by
  induction h with
  | ends e => exact .ends (by rw [scanTurn_withScannerOf, e])
  | goesOn e _ ih => exact .goesOn (by rw [scanTurn_withScannerOf, e]) ih

theorem scan_withScannerOf (s u : State) :
    scan (withScannerOf s u) = ((scan s).1, withScannerOf (scan s).2 u) :=
  scan_eq_of_runs ((scan_runs s).withScannerOf u)

/-- SCAN comes to the same in every state with the same scanner. -/
theorem scan_of_sameScanner {s u : State} (h : withScannerOf s u = u) :
    scan u = ((scan s).1, withScannerOf (scan s).2 u) := by
  rw [← scan_withScannerOf, h]

@[simp] theorem scan_maxScan (s : State) : (scan s).2.maxScan = s.maxScan := by
  rw [scan_frame]

@[simp] theorem scan_cmdReadCounts (s : State) : (scan s).2.cmdReadCounts = s.cmdReadCounts := by
  rw [scan_frame]

/-! ### READ -/

/-- READ, once its query is written, runs the SCAN that the state it started from would run (R110). -/
theorem exec_read_eq_readOutcome {s : State} (hidle : s.drvState = .idle) (hboot : s.bootFault = false)
    (hok : nextTxReply s.tx = .answer .ok) :
    exec .read s = .next (readOutcome (scan s).1
      { s with drvState := .busy, scPhase := (scan s).2.scPhase, scCnt := (scan s).2.scCnt, rx := (scan s).2.rx,
               tx := txAfter s.tx (s.tx.log ++ [queryFrame]), returned := .pending }) := by
  have hscan := scan_of_sameScanner (s := s)
    (u := { s with drvState := .busy, tx := txAfter s.tx (s.tx.log ++ [queryFrame]), returned := .pending }) rfl
  rw [exec_read_of_written hidle hboot hok, readScan, hscan, withScannerOf, scan_maxScan, scan_cmdReadCounts]

/-- SCAN hands back the result it came to (R98). -/
theorem eq_of_scanReturned_eq_scan {r r' : ScanResult} (h : scanReturned r = .scan r') : r = r' := by
  cases r with
  | blocked => cases h
  | _ => exact Returned.scan.inj h

/-- CHECK's sum of the data bytes, as a sum of bytes (R72). -/
theorem sum8_dataBytes (p : Payload) :
    sum8 (dataBytes p) = p.pm25Lo + p.pm25Hi + p.pm10Lo + p.pm10Hi + p.id1 + p.id2 := by
  simp [dataBytes, add_assoc]

/-- The packet status that READ stores, by the bytes of the payload (R16, R74). -/
theorem statusOf_verdictOf (p : Payload) :
    statusOf (verdictOf p) =
      if p.checksum = p.pm25Lo + p.pm25Hi + p.pm10Lo + p.pm10Hi + p.id1 + p.id2 ∧ p.tail = 0xAB then .ok else .nok := by
  rw [← sum8_dataBytes]
  exact apply_ite statusOf _ _ _

/-! ### The obligations of 43_sequencer.md -/

/-- Settles O25: the SCANSTEPs lead to what READ's own SCAN comes to. -/
theorem readByScanResult : Obligations.ReadByScanResult := by
  intro s t hidle hboot hok hsteps
  obtain rfl := stepsToResult_scanStart.mp hsteps
  rw [exec_read_eq_readOutcome hidle hboot hok]
  refine ⟨fun rd hret => ?found, ?nok, fun hret => ?transportFault⟩
  case found =>
    rw [eq_of_scanReturned_eq_scan hret, hidle]
    rfl
  case nok =>
    rintro (hret | hret) <;>
    · rw [eq_of_scanReturned_eq_scan hret, hidle]
      rfl
  case transportFault =>
    rw [eq_of_scanReturned_eq_scan hret, hidle]
    rfl

/-- Settles O26: the scan finds the frame's reading, and READ stores it over whatever the registers held. -/
theorem readStoresFrameAfterHarmlessNoise : Obligations.ReadStoresFrameAfterHarmlessNoise := by
  intro s noise p rx1 rx2 hidle hboot hok hnoise hbudget hread hpayload
  obtain ⟨n, -, -, hscan⟩ := scan_of_harmlessNoise hnoise hbudget hread hpayload
  refine ⟨n, pm25Raw p, pm10Raw p, toNat_le16 _ _, toNat_le16 _ _, ?_⟩
  rw [exec_read_eq_readOutcome hidle hboot hok, hscan, payloadResult_payloadBytes, ← statusOf_verdictOf, hidle]
  rfl

/-- Settles O30: R51's bytes are those of the frames written. -/
theorem wakeAndSleepWriteTheirFrames : Obligations.WakeAndSleepWriteTheirFrames := by
  intro s hidle hboot hok
  refine ⟨?wake, ?sleep⟩
  case wake => exact hostOp_writeThen_finish hidle hboot hok wakeFrame (.code .ok)
  case sleep => exact hostOp_writeThen_finish hidle hboot hok sleepFrame (.code .ok)

/-- Settles O33. -/
theorem concentrationAccessors : Obligations.ConcentrationAccessors := by
  intro s hidle hboot
  rw [exec_getPm25 hidle hboot, exec_getPm10 hidle hboot]
  refine ⟨fun hnone => ?pm25_none, fun raw hraw => ⟨concentrationOf raw, concentrationOf_exact raw, ?pm25_some⟩,
    fun hnone => ?pm10_none, fun raw hraw => ⟨concentrationOf raw, concentrationOf_exact raw, ?pm10_some⟩⟩
  case pm25_none => rw [hnone, Option.map_none]
  case pm25_some => rw [hraw, Option.map_some]
  case pm10_none => rw [hnone, Option.map_none]
  case pm10_some => rw [hraw, Option.map_some]

/-- Settles O34. -/
theorem statusAndRawAccessors : Obligations.StatusAndRawAccessors := by
  intro s hidle hboot
  exact ⟨hostOp_finish hidle hboot (.status s.rdStatus), hostOp_finish hidle hboot (.raw s.rdRaw)⟩

end Sys2Proof.Machine
end

/-! ## The exceptions family: a stream without the markers, and a write that fails -/

section
namespace Sys2Proof.Machine

/-! ### Only the markers side by side lead to PAYLOAD -/

/-- Only 0xAA leads to CMD (R92, R93). -/
theorem eq_hdr_of_phaseAfter_cmd {ph : ScPhase} {b : Byte} (h : phaseAfter ph [b] = .cmd) : b = Config.hdr := by
  by_contra ha
  by_cases hc : b = Config.cmdIdIn
  · subst hc
    exact (phaseAfter_cmdIdIn ph).2 h
  · exact (phaseAfter_other ph ha hc).2 h

/-- PAYLOAD is reached from CMD alone, by 0xC0 (R93). -/
theorem of_phaseAfter_payload {ph : ScPhase} {b : Byte} (h : phaseAfter ph [b] = .payload) :
    ph = .payload ∨ ph = .cmd ∧ b = Config.cmdIdIn := by
  cases ph with
  | hunt => simp [phaseAfter, ite_eq_iff] at h
  | cmd =>
    by_cases hc : b = Config.cmdIdIn
    · exact .inr ⟨rfl, hc⟩
    · simp [phaseAfter_cmd_of_ne hc] at h
  | payload => exact .inl rfl

theorem exists_concat_hdr_of_phaseOver_cmd {bs : List Byte} (h : phaseOver .hunt bs = .cmd) :
    ∃ before, bs = before ++ [Config.hdr] := by
  rcases List.eq_nil_or_concat' bs with rfl | ⟨before, b, rfl⟩
  · cases h
  · rw [phaseOver_concat] at h
    exact ⟨before, by rw [eq_hdr_of_phaseAfter_cmd h]⟩

/-- The byte before the 0xC0 that matches is the 0xAA that led to CMD, so bytes without `AA C0` never lead to PAYLOAD
(R93, R132). -/
theorem NoMarkers.phaseOver_ne_payload {bs : List Byte} (h : NoMarkers bs) : phaseOver .hunt bs ≠ .payload := by
  induction bs using List.reverseRecOn with
  | nil => simp
  | append_singleton bs b ih =>
    intro hlast
    rw [phaseOver_concat] at hlast
    rcases of_phaseAfter_payload hlast with hbefore | ⟨hcmd, rfl⟩
    · exact ih (fun before after e => h before (after ++ [b]) (by simp [e])) hbefore
    · obtain ⟨before, rfl⟩ := exists_concat_hdr_of_phaseOver_cmd hcmd
      exact h before [] (by simp)

/-! ### The scan that uses up its budget on bytes, and the write that fails -/

/-- With every read charged, as many bytes as the budget and no `AA C0` among them make SCAN end in NotFound, those bytes
read (R91, R101). -/
theorem scan_of_noMarkers {s : State} {bs : List Byte} {rx : RxStream} (hcounts : s.cmdReadCounts = true)
    (hlen : bs.length = s.maxScan) (hnone : NoMarkers bs) (hread : OneByOne bs s.rx rx) :
    scan s = (.notFound, { s with scPhase := phaseOver .hunt bs, scCnt := s.maxScan, rx := rx }) := by
  have hph : phaseOver .hunt bs ≠ .payload := hnone.phaseOver_ne_payload
  obtain ⟨n, -, heq, hruns⟩ := ScanRuns.of_bytes (s := scanStart s) hread (by simp [hlen]) hph
  obtain rfl : n = s.maxScan := by simpa [hlen] using heq hcounts
  exact scan_eq_of_runs (hruns _ _ (.ends (scanTurn_of_spent hph (charged_of_cmdReadCounts hcounts) rfl)))

/-- A host operation whose write fails ends there in FAULT, whatever was to follow the write (R131). -/
theorem hostOp_writeThen_of_fail {s : State} (hidle : s.drvState = .idle) (hboot : s.bootFault = false)
    (hfail : nextTxReply s.tx = .answer .fail) (f : List Byte) (rest : State → State) :
    hostOp (writeThen f rest) s = .next { s with tx := txAfter s.tx s.tx.log, returned := .code .fault } := by
  have hwrite := writeThen_fail (f := f) (rest := rest) (s := { s with drvState := .busy, returned := .pending }) hfail
  rw [hostOp_runs hidle hboot, hwrite]
  exact congrArg _ (finish_of_idle (s := { s with tx := txAfter s.tx s.tx.log }) hidle _)

/-! ### The obligations of 60_exceptions.md -/

/-- Settles O28: READ's scan comes to NotFound on these bytes, and READ then stores nothing. -/
theorem readWithoutMarkersKeepsReading : Obligations.ReadWithoutMarkersKeepsReading := by
  intro s bs rx1 hidle hboot hok hcounts hlen hnone hread
  refine ⟨phaseOver .hunt bs, ?_⟩
  rw [exec_read_eq_readOutcome hidle hboot hok, scan_of_noMarkers hcounts hlen hnone hread, hidle]
  rfl

/-- Settles O31: each of the three is a write and what follows it. -/
theorem failedWriteReturnsFault : Obligations.FailedWriteReturnsFault := by
  intro s hidle hboot hfail
  exact ⟨hostOp_writeThen_of_fail hidle hboot hfail queryFrame readScan,
    hostOp_writeThen_of_fail hidle hboot hfail wakeFrame (finish (.code .ok)),
    hostOp_writeThen_of_fail hidle hboot hfail sleepFrame (finish (.code .ok))⟩

end Sys2Proof.Machine
end

/-! ## The reset and hazards family: the step, the boot write, and a reading that may be trusted -/

section
namespace Sys2Proof.Machine

/-! ### The host's next call -/

theorem fetch_of_nil {s : State} (h : s.calls = []) : fetch s = .quiet := by
  simp [fetch, h]

theorem fetch_of_ok {s : State} {r : Request} {later : List Request} {i : Instr} (h : s.calls = r :: later)
    (hd : decode r = .ok i) : fetch s = .operation i { s with calls := later } := by
  simp [fetch, h, hd]

theorem fetch_of_error {s : State} {r : Request} {later : List Request} {e : DecodeError} (h : s.calls = r :: later)
    (hd : decode r = .error e) : fetch s = .unreadable e := by
  simp [fetch, h, hd]

/-! ### RESET, by the reply to its boot write -/

theorem exec_reset (n : Nat) (s : State) : exec (.reset n) s = .next (bootWrite (freshInstance n s)) :=
  rfl

/-- Emptying the log does not touch the replies listed for the boot write (log 14). -/
@[simp] theorem nextTxReply_freshInstance (n : Nat) (s : State) :
    nextTxReply (freshInstance n s).tx = nextTxReply s.tx :=
  rfl

theorem noReading_freshInstance (n : Nat) (s : State) : NoReading (freshInstance n s) :=
  ⟨rfl, rfl, rfl, rfl⟩

/-- The boot frame is the one entry of the fresh log (R151). -/
theorem exec_reset_of_ok {s : State} (h : nextTxReply s.tx = .answer .ok) (n : Nat) :
    exec (.reset n) s =
      .next { freshInstance n s with tx := txAfter s.tx [setModeFrame], returned := .code .ok } := by
  rw [exec_reset, bootWrite_ok ((nextTxReply_freshInstance n s).trans h)]
  rfl

/-- A failed boot write logs nothing and sets BOOT_FAULT (R33, R152). -/
theorem exec_reset_of_fail {s : State} (h : nextTxReply s.tx = .answer .fail) (n : Nat) :
    exec (.reset n) s =
      .next { freshInstance n s with bootFault := true, tx := txAfter s.tx [], returned := .code .fault } := by
  rw [exec_reset, bootWrite_fail ((nextTxReply_freshInstance n s).trans h)]
  rfl

/-- BOOT_FAULT is the second test of the common start (R152; log 17). -/
theorem hostOp_bootFault {body : State → State} {s : State} (hidle : s.drvState = .idle) (hboot : s.bootFault = true) :
    hostOp body s = .refused .bootWriteFailed := by
  simp [hostOp, hidle, hboot]

/-! ### The status of a verdict -/

theorem statusOf_eq_ok {v : Verdict} : statusOf v = .ok ↔ v = .ok := by
  cases v <;> simp [statusOf]

/-! ### The obligations of 70_reset_and_hazards.md -/

/-- Settles O29: a READ that returned OK has stored one payload's reading, whose status is that payload's verdict. -/
theorem trustedReadingPassesCheck : Obligations.TrustedReadingPassesCheck := by
  intro s t h ⟨hok, hstatus⟩
  rcases (exec_effect h).reading (by simp) with ⟨-, hnotOk⟩ | ⟨-, -, p, hframe⟩
  · exact absurd hok (hnotOk rfl)
  · refine ⟨p, hframe, exec_check_eq_verdict.mpr (statusOf_eq_ok.mp ?_)⟩
    obtain ⟨-, -, hverdict, -⟩ := hframe
    exact hverdict.symm.trans hstatus

/-- Settles O39: RESET's result by the failing reply, the common start's refusal, and the parameters' frame. -/
theorem bootFailureRefusesUntilReset : Obligations.BootFailureRefusesUntilReset := by
  refine ⟨fun s n hfail => ?fails, fun i s hi hidle hboot => ?refused, fun i s t hreset hboot h => ?stays⟩
  case fails => exact ⟨_, exec_reset_of_fail hfail n, rfl, rfl, rfl, rfl, noReading_freshInstance n s, rfl⟩
  case refused =>
    obtain ⟨body, hbody⟩ := exec_hostOperation hi s
    rw [hbody, hostOp_bootFault hidle hboot]
  case stays =>
    obtain ⟨-, -, hparams⟩ := (exec_effect h).parameters
    obtain ⟨-, hkept⟩ := hparams hreset
    rw [hkept, hboot]

/-- Settles O4: what decodes is well-formed, by O2. -/
theorem stepRunsDecodedCall : Obligations.StepRunsDecodedCall := by
  intro s r later i hcalls hd
  obtain ⟨hwf, -⟩ := decodeReadsEveryBit r i hd
  refine ⟨hwf, ?_⟩
  rw [step, fetch_of_ok hcalls hd]

/-- Settles O5. -/
theorem stepWithoutOperation : Obligations.StepWithoutOperation := by
  refine ⟨fun s hcalls => ?quiet, fun s r later e hcalls hd => ?unreadable⟩
  case quiet => rw [step, fetch_of_nil hcalls]
  case unreadable => rw [step, fetch_of_error hcalls hd]

/-- Settles O38: the state RESET leaves is the fresh instance but for its TX stream and its result. -/
theorem resetMakesFreshInstance : Obligations.ResetMakesFreshInstance := by
  intro s n hok
  exact ⟨_, exec_reset_of_ok hok n, noReading_freshInstance n s, rfl, rfl, rfl, rfl, rfl, rfl, rfl, rfl⟩

end Sys2Proof.Machine
end

/-! ## Calls that never answer (log 9): the write, the scan, and the boot write -/

section
namespace Sys2Proof.Machine

/-- A host operation whose write is never answered stops there, whatever was to follow the write: nothing is logged and no
result is handed back (D24; log 9). -/
theorem hostOp_writeThen_of_never {s : State} (hidle : s.drvState = .idle) (hboot : s.bootFault = false)
    (hnever : nextTxReply s.tx = .never) (f : List Byte) (rest : State → State) :
    hostOp (writeThen f rest) s =
      .next { s with drvState := .busy, tx := txAfter s.tx s.tx.log, returned := .pending } := by
  rw [hostOp_runs hidle hboot]
  exact congrArg _ (writeThen_never hnever)

/-- READ whose scan is blocked keeps what the scan consumed and hands back no result (D24; log 9). -/
theorem exec_read_of_blocked {s : State} (hidle : s.drvState = .idle) (hboot : s.bootFault = false)
    (hok : nextTxReply s.tx = .answer .ok) (hblocked : (scan s).1 = .blocked) :
    exec .read s = .next
      { s with drvState := .busy, scPhase := (scan s).2.scPhase, scCnt := (scan s).2.scCnt, rx := (scan s).2.rx,
               tx := txAfter s.tx (s.tx.log ++ [queryFrame]), returned := .pending } := by
  rw [exec_read_eq_readOutcome hidle hboot hok, hblocked]
  rfl

/-- An unanswered boot write logs nothing and leaves the fresh instance BUSY (log 9, log 14). -/
theorem exec_reset_of_never {s : State} (h : nextTxReply s.tx = .never) (n : Nat) :
    exec (.reset n) s =
      .next { freshInstance n s with drvState := .busy, tx := txAfter s.tx [], returned := .pending } := by
  rw [exec_reset, bootWrite_never ((nextTxReply_freshInstance n s).trans h)]
  rfl

/-- Settles O32: one clause for each call that may never answer. READ's scan ends where the SCANSTEPs end, and they hand back
nothing only where it is blocked. -/
theorem unansweredCallLeavesBusy : Obligations.UnansweredCallLeavesBusy := by
  refine fun s => ⟨fun hidle hboot hnever i hi => ?write, fun t hidle hboot hok hsteps hpending => ?scan,
    fun hnever n => ?boot⟩
  case write =>
    simp only [List.mem_cons, List.not_mem_nil, or_false] at hi
    rcases hi with rfl | rfl | rfl
    · exact hostOp_writeThen_of_never hidle hboot hnever queryFrame readScan
    · exact hostOp_writeThen_of_never hidle hboot hnever wakeFrame (finish (.code .ok))
    · exact hostOp_writeThen_of_never hidle hboot hnever sleepFrame (finish (.code .ok))
  case scan =>
    obtain rfl := stepsToResult_scanStart.mp hsteps
    exact exec_read_of_blocked hidle hboot hok (scanReturned_eq_pending.mp hpending)
  case boot => exact ⟨_, exec_reset_of_never hnever n, rfl, rfl, rfl⟩

end Sys2Proof.Machine
end
